-- ==== Sys2Proof/Word.lean ====
section
/-!
DEFINITION. The words of the block and the vocabulary of its ports: register names, host requests,
host responses and the stimuli that drive a transition.
-/
namespace Sys2Proof

/-- A host register or the data lines of the host bus: 32 bits (00_scope.md R9, 10_state.md R15). -/
abbrev Word := BitVec 32

/-- A byte of SRC or FRAME (10_state.md R33, R34). -/
abbrev Byte := BitVec 8

/-- The address lines of the host bus: 20 bits (00_scope.md R9, 20_memory.md R38). -/
abbrev HostAddr := BitVec 20

/-- The registers REG_WRITE can write (42_control_and_host_bus.md R107). -/
inductive ParamReg where
  | mode | baud | loadAddr | srcLen
deriving DecidableEq, Repr

/-- The registers REG_READ can read: those with R in the access column of 10_state.md R17. -/
inductive ReadReg where
  | status | errCode | mode | baud | loadAddr | srcLen | frameLen | halfBit
  | cursorPos | cursorBit | hbCnt | sampleOut | limit
deriving DecidableEq, Repr

/-- The kind of a host transaction (20_memory.md R39). -/
inductive AccessKind where
  | read | write
deriving DecidableEq, Repr

/-- The width of a host transaction, 8 or 32 bits (20_memory.md R39). -/
inductive AccessWidth where
  | w8 | w32
deriving DecidableEq, Repr

/-- The request half of a host transaction (20_memory.md R39). -/
structure Request where
  kind  : AccessKind
  width : AccessWidth
  addr  : HostAddr
  wdata : Word
deriving DecidableEq, Repr

/-- `resp` of a host transaction (20_memory.md R39). -/
inductive BusStatus where
  | ok | busError
deriving DecidableEq, Repr

/-- The response half of a host transaction (20_memory.md R39). -/
structure BusResponse where
  resp  : BusStatus
  rdata : Word
deriving DecidableEq, Repr

/-- What can drive one transition of the block (00_scope.md R6): the reset input, one assertion of
the TICK strobe, or a host transaction. -/
inductive Input where
  | rst
  | tick
  | bus (r : Request)
deriving DecidableEq, Repr

end Sys2Proof
end

