-- ==== Sys2Proof/Config.lean ====
section
/-!
DEFINITION. The constants the source fixes (00_scope.md R7), the two parameters it leaves open (R8),
and the free values of the model. An opaque constant has no value that Lean can see: what is proved
holds for every value of its type.
-/
namespace Sys2Proof.Config

/-- SAMPLE_RATE (00_scope.md R7). -/
def sampleRate : Nat := 48000

/-- BAUD_MIN (00_scope.md R7). -/
def baudMin : Nat := 1

/-- BAUD_MAX, half the sample rate (00_scope.md R7). -/
def baudMax : Nat := 24000

/-- PAD_LEN, the leading zero bytes of a frame (00_scope.md R7). -/
def padLen : Nat := 256

/-- SYNC, the magic byte (00_scope.md R7). -/
def sync : Byte := 0xE6

/-- The OPEN parameter FILE_SIZE_LIMIT of 00_scope.md R8, less one. -/
opaque fileSizeLimitPred : Fin 65536

/-- FILE_SIZE_LIMIT: some natural number from 1 to 65536 (00_scope.md R8). -/
def fileSizeLimit : Nat := fileSizeLimitPred.val + 1

/-- FRAME_CAPACITY for a given FILE_SIZE_LIMIT: PAD_LEN + BIN_OVERHEAD + FILE_SIZE_LIMIT (00_scope.md
R9). -/
def frameCapacity (limit : Nat) : Nat := limit + 266

/-- The OPEN parameter OUTPUT_LEVEL of 00_scope.md R8 as its binary32 bits, less one. -/
opaque outputLevelPred : Fin 0x3F800000

/-- OUTPUT_LEVEL as IEEE 754 binary32 bits: some value above 0.0 and at most 1.0 (00_scope.md R8).
DEDUCED: positive binary32 values are ordered as their bits, and 1.0 is 0x3F800000. -/
def outputLevel : Word := BitVec.ofNat 32 (outputLevelPred.val + 1)

/-- DESIGN CHOICE (log entry 4): the rdata of the n-th OK response to a write. 20_memory.md R39 gives
every response an rdata and states none for a write, so it is a free value. -/
opaque writeRdata : Nat → Word

/-- DESIGN CHOICE (log entry 7): what a FRAME byte that no BUILD has written since reset holds. Its
contents are unspecified (10_state.md R34), so it is a free value. -/
opaque unwrittenFrameByte : Nat → Byte

end Sys2Proof.Config
end

