-- ==== Sys2Proof/Syntax.lean ====
section
/-!
DEFINITION. The operations of the block: one constructor for each row of spec/opcode_table.json.
-/
namespace Sys2Proof

/-- One operation of the block, with its operands (30_encoding.md R55, R57; 42_control_and_host_bus.md
R107 to R111). -/
inductive Instr where
  /-- NOP: CTRL word 0 (42_control_and_host_bus.md R105). -/
  | nop
  /-- BUILD: CTRL word 1 (40_frame_builder.md R67). -/
  | build
  /-- START: CTRL word 2 (41_sample_generator.md R89). -/
  | start
  /-- STOP: CTRL word 3 (42_control_and_host_bus.md R106). -/
  | stop
  /-- TICK: one assertion of the strobe (41_sample_generator.md R90). -/
  | tick
  /-- REG_WRITE: the register and the data word (42_control_and_host_bus.md R107). -/
  | regWrite (r : ParamReg) (w : Word)
  /-- REG_READ: the register (42_control_and_host_bus.md R108). -/
  | regRead (r : ReadReg)
  /-- SRC_WRITE: the index into SRC and the byte (42_control_and_host_bus.md R109). -/
  | srcWrite (i : Nat) (v : Byte)
  /-- SRC_READ: the index into SRC (42_control_and_host_bus.md R110). -/
  | srcRead (i : Nat)
  /-- FRAME_READ: the index into FRAME (42_control_and_host_bus.md R111). -/
  | frameRead (i : Nat)
deriving DecidableEq, Repr

end Sys2Proof
end

