-- ==== Sys2Proof/WellFormed.lean ====
section
/-!
DEFINITION. Which operations have an encoding: the window indexes stay inside their windows. Every
other operand is legal at each value of its type.
-/
namespace Sys2Proof

/-- A FRAME index is below FRAME_CAPACITY = FILE_SIZE_LIMIT + 266 (42_control_and_host_bus.md R111).
The 266 is taken from the index, cut off at 0, which says the same for every limit from 1 up and
needs no value of the limit for an index below 267. -/
def inFrameWindow (limit i : Nat) : Bool := decide (i - 266 < limit)

/-- The operand conditions of the opcode table, for a given FILE_SIZE_LIMIT: a SRC index is below
FILE_SIZE_LIMIT (42_control_and_host_bus.md R109, R110) and a FRAME index below FRAME_CAPACITY (R111). -/
def Instr.wellFormedAt (limit : Nat) : Instr → Bool
  | .nop | .build | .start | .stop | .tick => true
  | .regWrite _ _ | .regRead _ => true
  | .srcWrite i _ => decide (i < limit)
  | .srcRead i => decide (i < limit)
  | .frameRead i => inFrameWindow limit i

/-- An operation is well-formed when its operands are legal for the block's FILE_SIZE_LIMIT. -/
abbrev Instr.WellFormed (i : Instr) : Prop := i.wellFormedAt Config.fileSizeLimit = true

end Sys2Proof
end

