-- ==== Sys2Proof/Decode.lean ====
section
/-!
DEFINITION. The decoder and the encoder. An operation's encoding is its transaction (30_encoding.md
R65): a TICK, or a host request of kind, width, address and data. The decoder is total. It names
what it does not give an operation for: a reserved CTRL word (R56), an illegal transaction
(20_memory.md R41), and the reset input, which is no row of the opcode table (70_reset_and_hazards.md
R130).
-/
namespace Sys2Proof

/-- The decoder's verdict on an input. -/
inductive Decoded where
  /-- An operation of the opcode table. -/
  | instr (i : Instr)
  /-- A reserved CTRL word: the IllegalCommand entry follows (30_encoding.md R56). -/
  | illegalCommand
  /-- A transaction that no row of 20_memory.md R40 admits. -/
  | busError
  /-- The reset input (70_reset_and_hazards.md R130). -/
  | reset
deriving DecidableEq, Repr

/-- The first address of the SRC window (20_memory.md R38). -/
def srcBase : Nat := 0x40000

/-- The first address of the FRAME window (20_memory.md R38). -/
def frameBase : Nat := 0x80000

/-- The first address above the register space (20_memory.md R38). -/
def registerSpaceEnd : Nat := 0x40

/-- The offset of a readable register (10_state.md R17). -/
def ReadReg.offset : ReadReg → HostAddr
  | .status => 0x04
  | .errCode => 0x08
  | .mode => 0x0C
  | .baud => 0x10
  | .loadAddr => 0x14
  | .srcLen => 0x18
  | .frameLen => 0x1C
  | .halfBit => 0x20
  | .cursorPos => 0x24
  | .cursorBit => 0x28
  | .hbCnt => 0x2C
  | .sampleOut => 0x30
  | .limit => 0x34

/-- The offset of a writable parameter register (10_state.md R17, 42_control_and_host_bus.md R107). -/
def ParamReg.offset : ParamReg → HostAddr
  | .mode => 0x0C
  | .baud => 0x10
  | .loadAddr => 0x14
  | .srcLen => 0x18

/-- The offset of CTRL (10_state.md R18). -/
def ctrlOffset : HostAddr := 0x00

/-- The readable register at an offset, if there is one (10_state.md R17). A misaligned offset holds
no register, so it answers none (20_memory.md R44). -/
def readRegAt (a : HostAddr) : Option ReadReg :=
  [ReadReg.status, .errCode, .mode, .baud, .loadAddr, .srcLen, .frameLen, .halfBit, .cursorPos,
    .cursorBit, .hbCnt, .sampleOut, .limit].find? (fun r => r.offset == a)

/-- The writable parameter register at an offset, if there is one (10_state.md R17). -/
def paramRegAt (a : HostAddr) : Option ParamReg :=
  [ParamReg.mode, .baud, .loadAddr, .srcLen].find? (fun r => r.offset == a)

/-- The command map over the whole 32-bit CTRL word (30_encoding.md R54 to R56). -/
def decodeCommand (w : Word) : Decoded :=
  if w = 0 then .instr .nop
  else if w = 1 then .instr .build
  else if w = 2 then .instr .start
  else if w = 3 then .instr .stop
  else .illegalCommand

/-- A transaction in the register space: 32-bit only, and the register must allow the kind
(20_memory.md R40). -/
def decodeRegister (r : Request) : Decoded :=
  match r.width, r.kind with
  | .w8, _ => .busError
  | .w32, .write =>
    if r.addr = ctrlOffset then decodeCommand r.wdata
    else match paramRegAt r.addr with
      | some p => .instr (.regWrite p r.wdata)
      | none => .busError
  | .w32, .read =>
    match readRegAt r.addr with
    | some q => .instr (.regRead q)
    | none => .busError

/-- A transaction at byte i of the SRC window: 8-bit reads and writes; a write uses wdata[7:0] only
(20_memory.md R39, R40). -/
def decodeSrc (r : Request) (i : Nat) : Decoded :=
  match r.width, r.kind with
  | .w8, .write => .instr (.srcWrite i (r.wdata.extractLsb' 0 8))
  | .w8, .read => .instr (.srcRead i)
  | .w32, _ => .busError

/-- A transaction at byte i of the FRAME window: 8-bit reads only (20_memory.md R40). -/
def decodeFrame (r : Request) (i : Nat) : Decoded :=
  match r.width, r.kind with
  | .w8, .read => .instr (.frameRead i)
  | .w8, .write => .busError
  | .w32, _ => .busError

/-- A host request by the region of its address (20_memory.md R38), for a given FILE_SIZE_LIMIT. -/
def decodeRequestAt (limit : Nat) (r : Request) : Decoded :=
  let a := r.addr.toNat
  if a < registerSpaceEnd then decodeRegister r
  else if a < srcBase then .busError
  else if a < frameBase then
    if a - srcBase < limit then decodeSrc r (a - srcBase) else .busError
  else
    if inFrameWindow limit (a - frameBase) then decodeFrame r (a - frameBase) else .busError

/-- The decoder, for a given FILE_SIZE_LIMIT. -/
def decodeAt (limit : Nat) : Input → Decoded
  | .rst => .reset
  | .tick => .instr .tick
  | .bus r => decodeRequestAt limit r

/-- The block's decoder. -/
def decode (x : Input) : Decoded := decodeAt Config.fileSizeLimit x

/-- A 32-bit write of w to CTRL (30_encoding.md R54). -/
def ctrlWrite (w : Word) : Input := .bus ⟨.write, .w32, ctrlOffset, w⟩

/-- The transaction of an operation, from the encoding lines of 30_encoding.md R55, R57 and
42_control_and_host_bus.md R107 to R111. Data lines an operation does not use are 0. -/
def encode : Instr → Input
  | .nop => ctrlWrite 0
  | .build => ctrlWrite 1
  | .start => ctrlWrite 2
  | .stop => ctrlWrite 3
  | .tick => .tick
  | .regWrite r w => .bus ⟨.write, .w32, r.offset, w⟩
  | .regRead r => .bus ⟨.read, .w32, r.offset, 0⟩
  | .srcWrite i v => .bus ⟨.write, .w8, BitVec.ofNat 20 (srcBase + i), v.setWidth 32⟩
  | .srcRead i => .bus ⟨.read, .w8, BitVec.ofNat 20 (srcBase + i), 0⟩
  | .frameRead i => .bus ⟨.read, .w8, BitVec.ofNat 20 (frameBase + i), 0⟩

/-- DESIGN CHOICE (log entry 10): the input that a word of spec/opcode_table.json stands for. The
table's formats share numbers, so its length in bits tells them apart: a CTRL row gives the 32 bits
of the command word, the STROBE row gives one bit, and a BUS row gives the 20 address bits alone. The
kind, width and data of a BUS row have no bits there. Read here is a read, the first kind that
20_memory.md R39 lists, of the one width that R40 admits in the region of the address. -/
def tableInput (nbits w : Nat) : Option Input :=
  if nbits = 32 then (if w < 2 ^ 32 then some (ctrlWrite (BitVec.ofNat 32 w)) else none)
  else if nbits ≤ 8 then (if w = 1 then some .tick else none)
  else if w < 2 ^ 20 then
    some (.bus ⟨.read, if w < registerSpaceEnd then .w32 else .w8, BitVec.ofNat 20 w, 0⟩)
  else none

/-- The operation the decoder reads from a word of spec/opcode_table.json. -/
def decodeTableWord (nbits w : Nat) : Option Instr :=
  match (tableInput nbits w).map decode with
  | some (.instr i) => some i
  | _ => none

end Sys2Proof
end

