-- ==== Sys2Proof/Machine/State.lean ====
section
/-!
DEFINITION. The state of the block (10_state.md R16), the ways a step can stop, and the state after
reset (70_reset_and_hazards.md R131). State is plain data.
-/
namespace Sys2Proof.Machine

/-- STATUS.STATE (10_state.md R19). Codes 5 to 7 are never produced and have no name here. -/
inductive Controller where
  | idle | ready | playing | finished | error
deriving DecidableEq, Repr

/-- MODE.FMT (10_state.md R21): 0 TapeImage, 1 BinaryLoader. -/
inductive Format where
  | tapeImage | binaryLoader
deriving DecidableEq, Repr

/-- ERR_CODE.CODE (60_exceptions.md R113). Codes 8 to 15 are never produced and have no name here; 5
and 6 have one and are never written by the block. -/
inductive ErrorCode where
  | none | emptyInput | fileTooLarge | invalidLoadAddress | invalidBaudRate | unreadable
  | audioDeviceError | illegalCommand
deriving DecidableEq, Repr

/-- SAMPLE_OUT.SYM (10_state.md R30, 30_encoding.md R64). Code 3 is never produced. -/
inductive Symbol where
  | zero | pos | neg
deriving DecidableEq, Repr

/-- The playback cursor (10_state.md R16, R27 to R29). -/
structure Cursor where
  /-- BYTE_POS, the index into FRAME. -/
  bytePos : BitVec 17
  /-- BIT_POS, 7 down to 0. -/
  bitPos : BitVec 3
  /-- PHASE: true in the first half of a bit period. -/
  phase : Bool
  /-- HB_CNT, the half-bit countdown. -/
  hbCnt : BitVec 15
  /-- DONE. -/
  done : Bool
deriving DecidableEq, Repr

/-- The cursor's idle values (10_state.md R32). -/
def Cursor.idle : Cursor := ⟨0, 7, true, 0, false⟩

/-- A byte memory: (address, byte) cells with strictly rising addresses. An address that is not
listed has no value: for SRC it is unwritten since reset (10_state.md R33), for FRAME no BUILD has
written it since reset (R34). -/
abbrev Memory := List Host.Cell

/-- The complete state of the block (10_state.md R16), then three fields of the model's own. -/
structure State where
  /-- MODE.FMT (10_state.md R21). -/
  fmt : Format
  /-- BAUD (10_state.md R22). -/
  baud : Word
  /-- LOAD_ADDR (10_state.md R23). -/
  loadAddr : Word
  /-- SRC_LEN (10_state.md R24). -/
  srcLen : Word
  /-- STATUS.STATE (10_state.md R19). -/
  ctrl : Controller
  /-- STATUS.ILL (10_state.md R19). -/
  ill : Bool
  /-- ERR_CODE.CODE (10_state.md R20). -/
  errCode : ErrorCode
  /-- FRAME_LEN (10_state.md R25). -/
  frameLen : BitVec 17
  /-- HALF_BIT (10_state.md R26). -/
  halfBit : BitVec 15
  /-- BYTE_POS, BIT_POS, PHASE, HB_CNT and DONE (10_state.md R27 to R29). -/
  cursor : Cursor
  /-- SAMPLE_OUT.SYM (10_state.md R30). -/
  sampleOut : Symbol
  /-- SRC and its written marks (10_state.md R33). -/
  src : Memory
  /-- FRAME (10_state.md R34). -/
  frame : Memory
  /-- The model's own (log entry 1): the transitions still to come, in the one total order of
  20_memory.md R49, the earliest first. -/
  inputs : List Input
  /-- The model's own (log entry 5): the response of the most recent host transaction since reset
  (20_memory.md R39). -/
  response : Option BusResponse
  /-- The model's own (log entry 4): how many unstated values the run has taken so far. -/
  freeCount : Nat
deriving DecidableEq, Repr

/-- Why a transition has no next state. -/
inductive Fault where
  /-- UnwrittenSource: raised by BUILD and SRC_READ when they read a SRC byte not written since reset
  (10_state.md R33, 40_frame_builder.md R73, 42_control_and_host_bus.md R110). Safe: the model stops
  where the hardware goes on with an unspecified byte. -/
  | unwrittenSource
deriving DecidableEq, Repr

/-- Why an operation has no meaning in the model. -/
inductive Refusal where
  /-- Raised by the dispatcher for an operation whose meaning is not written yet. Safe: nothing is
  claimed of it. No arm raises it. -/
  | notModelled (mnemonic : String)
deriving DecidableEq, Repr

/-- The block right after reset (70_reset_and_hazards.md R131). The memories list nothing: their
contents are unspecified. The model's own fields hold no input, no response and a count of 0. -/
def State.reset : State where
  fmt := .tapeImage
  baud := 1300
  loadAddr := 0
  srcLen := 0
  ctrl := .idle
  ill := false
  errCode := .none
  frameLen := 0
  halfBit := 0
  cursor := Cursor.idle
  sampleOut := .zero
  src := []
  frame := []
  inputs := []
  response := none
  freeCount := 0

end Sys2Proof.Machine
end

