-- ==== Sys2Proof/Machine/Flags.lean ====
section
/-!
DEFINITION. The codes and status words of the block's fields, the polarity of a half-bit, and the
sample ports.
-/
namespace Sys2Proof.Machine

/-- The code of STATUS.STATE (10_state.md R19). -/
def Controller.code : Controller → BitVec 3
  | .idle => 0
  | .ready => 1
  | .playing => 2
  | .finished => 3
  | .error => 4

/-- The code of MODE.FMT (10_state.md R21). -/
def Format.code : Format → BitVec 1
  | .tapeImage => 0
  | .binaryLoader => 1

/-- The format that bit 0 of a MODE write selects (10_state.md R21). -/
def Format.ofBit : Bool → Format
  | false => .tapeImage
  | true => .binaryLoader

/-- The code of ERR_CODE (60_exceptions.md R113). -/
def ErrorCode.code : ErrorCode → BitVec 4
  | .none => 0
  | .emptyInput => 1
  | .fileTooLarge => 2
  | .invalidLoadAddress => 3
  | .invalidBaudRate => 4
  | .unreadable => 5
  | .audioDeviceError => 6
  | .illegalCommand => 7

/-- The code of SAMPLE_OUT.SYM (30_encoding.md R64). -/
def Symbol.code : Symbol → BitVec 2
  | .zero => 0
  | .pos => 1
  | .neg => 2

/-- The binary32 bits of a symbol (30_encoding.md R64): +0.0, OUTPUT_LEVEL, and OUTPUT_LEVEL with
bit 31 set. -/
def Symbol.level : Symbol → Word
  | .zero => 0
  | .pos => Config.outputLevel
  | .neg => Config.outputLevel ||| 0x80000000#32

/-- The symbol of a half-bit: POS when bit XOR PHASE is 1, NEG otherwise (41_sample_generator.md R93). -/
def polarity (bit phase : Bool) : Symbol := if xor bit phase then .pos else .neg

/-- STATUS: STATE in bits 2 to 0, ILL in bit 3 (10_state.md R19). -/
def statusWord (s : State) : Word :=
  (BitVec.ofBool s.ill ++ s.ctrl.code).setWidth 32

/-- CURSOR_BIT: BIT_POS in bits 2 to 0, PHASE in bit 3, DONE in bit 4 (10_state.md R28). -/
def cursorBitWord (c : Cursor) : Word :=
  (BitVec.ofBool c.done ++ BitVec.ofBool c.phase ++ c.bitPos).setWidth 32

/-- The port SAMPLE_SYM (10_state.md R15, R30). -/
def State.sampleSym (s : State) : BitVec 2 := s.sampleOut.code

/-- The port SAMPLE_L (10_state.md R15, 41_sample_generator.md R97). -/
def State.sampleL (s : State) : Word := s.sampleOut.level

/-- The port SAMPLE_R, which always equals SAMPLE_L (41_sample_generator.md R97). -/
def State.sampleR (s : State) : Word := s.sampleOut.level

end Sys2Proof.Machine
end

