-- ==== Sys2Proof/Machine/Ops.lean ====
section
/-!
DEFINITION. The named operations over memories, cursor, sample output, errors, bus responses and
reset that the meanings share (00_scope.md R11).
-/
namespace Sys2Proof.Machine

/-! ### Byte memories -/

/-- What an address that is not listed reads as: no value (10_state.md R33, R34). -/
def Memory.unlisted : Option Byte := none

/-- The byte at an address, or none where nothing has been written since reset. -/
def Memory.read : Memory → Nat → Option Byte
  | [], _ => Memory.unlisted
  | (k, b) :: m, a => if k = a then some b else Memory.read m a

/-- Write one byte, keeping the addresses strictly rising. No byte equals the unlisted reading, so a
write never removes a cell. -/
def Memory.write : Memory → Nat → Byte → Memory
  | [], a, v => [(a, v)]
  | (k, b) :: m, a, v =>
    if a < k then (a, v) :: (k, b) :: m
    else if a = k then (a, v) :: m
    else (k, b) :: Memory.write m a v

/-- Write a byte sequence at consecutive addresses from `base`. -/
def Memory.writeFrom (m : Memory) : Nat → List Byte → Memory
  | _, [] => m
  | base, b :: bs => Memory.write (Memory.writeFrom m (base + 1) bs) base b

/-- Every address is at least `lo` and each is above the one before it. -/
def Memory.risingFrom : Nat → Memory → Bool
  | _, [] => true
  | lo, (k, _) :: m => decide (lo ≤ k) && Memory.risingFrom (k + 1) m

/-- The canonical form: strictly rising addresses. A listed byte never equals the unlisted reading. -/
def Memory.wf (m : Memory) : Bool := Memory.risingFrom 0 m

/-- Every listed address is below `bound`. -/
def Memory.below (bound : Nat) (m : Memory) : Bool := m.all (fun c => decide (c.1 < bound))

/-- The bytes at n consecutive addresses from `base`, or none if one of them has no value. -/
def Memory.readFrom (m : Memory) : Nat → Nat → Option (List Byte)
  | _, 0 => some []
  | base, n + 1 =>
    match Memory.read m base, Memory.readFrom m (base + 1) n with
    | some b, some bs => some (b :: bs)
    | _, _ => none

/-- A byte of FRAME as the block reads it. A byte no BUILD has written since reset is a free value;
in a reachable state it is never read (10_state.md R34). -/
def State.frameByte (s : State) (i : Nat) : Byte :=
  (Memory.read s.frame i).getD (Config.unwrittenFrameByte i)

/-! ### Cursor and sample output -/

/-- `cursor_idle()` (10_state.md R32). -/
def State.cursorIdle (s : State) : State := { s with cursor := Cursor.idle }

/-- `emit(sym)`: SAMPLE_OUT takes the symbol (41_sample_generator.md R97). -/
def State.emit (s : State) (sym : Symbol) : State := { s with sampleOut := sym }

/-! ### Errors -/

/-- `raise IllegalCommand`: ILL and ERR_CODE, and nothing else (60_exceptions.md R120). -/
def State.raiseIllegalCommand (s : State) : State :=
  { s with ill := true, errCode := .illegalCommand }

/-- `fail(code)`: the entry of a failing BUILD (40_frame_builder.md R86). -/
def State.failBuild (s : State) (code : ErrorCode) : State :=
  { s with ctrl := .error, errCode := code, frameLen := 0, halfBit := 0, cursor := Cursor.idle }

/-- What STOP does, which is also the way out of every error (42_control_and_host_bus.md R106,
60_exceptions.md R121): the frame is released and both error marks are cleared. -/
def State.release (s : State) : State :=
  { s with ctrl := .idle, errCode := .none, ill := false, frameLen := 0, halfBit := 0,
           cursor := Cursor.idle }

/-! ### Bus responses (20_memory.md R39) -/

/-- OK to a read, with its data. -/
def State.respondRead (s : State) (v : Word) : State := { s with response := some ⟨.ok, v⟩ }

/-- OK to a write. Its rdata is a free value, and the next free value is another one. -/
def State.respondWrite (s : State) : State :=
  { s with response := some ⟨.ok, Config.writeRdata s.freeCount⟩, freeCount := s.freeCount + 1 }

/-- BUS_ERROR: rdata is 0 and the block's state does not change (20_memory.md R41). -/
def State.respondBusError (s : State) : State := { s with response := some ⟨.busError, 0⟩ }

/-! ### Reset and the next input -/

/-- RESET (70_reset_and_hazards.md R130). The transitions still to come stay, and so does the count
of free values, so that a value after reset is not tied to one before it. -/
def State.performReset (s : State) : State :=
  { State.reset with inputs := s.inputs, freeCount := s.freeCount }

/-- The next transition's input and the state without it, if an input is left. -/
def State.nextInput (s : State) : Option (Input × State) :=
  match s.inputs with
  | [] => none
  | x :: rest => some (x, { s with inputs := rest })

end Sys2Proof.Machine
end

