-- ==== Sys2Proof/Machine/Operands.lean ====
section
/-!
DEFINITION. The operands of the operations: the host registers as words, and the payload of a BUILD.
-/
namespace Sys2Proof.Machine

/-- The 32-bit value of a readable register, its unused bits 0 (10_state.md R19 to R31), for a given
FILE_SIZE_LIMIT. -/
def readRegisterAt (limit : Nat) (s : State) : ReadReg → Word
  | .status => statusWord s
  | .errCode => s.errCode.code.setWidth 32
  | .mode => s.fmt.code.setWidth 32
  | .baud => s.baud
  | .loadAddr => s.loadAddr
  | .srcLen => s.srcLen
  | .frameLen => s.frameLen.setWidth 32
  | .halfBit => s.halfBit.setWidth 32
  | .cursorPos => s.cursor.bytePos.setWidth 32
  | .cursorBit => cursorBitWord s.cursor
  | .hbCnt => s.cursor.hbCnt.setWidth 32
  | .sampleOut => s.sampleOut.code.setWidth 32
  | .limit => ((BitVec.ofNat 17 limit).setWidth 32)

/-- Store a word in a parameter register. MODE keeps bit 0 only (42_control_and_host_bus.md R107). -/
def writeRegister (s : State) (w : Word) : ParamReg → State
  | .mode => { s with fmt := Format.ofBit (w.getLsbD 0) }
  | .baud => { s with baud := w }
  | .loadAddr => { s with loadAddr := w }
  | .srcLen => { s with srcLen := w }

/-- The payload p[0..n-1] of a BUILD, with n = SRC_LEN, or none if one of its bytes is unwritten
(40_frame_builder.md R73). -/
def State.payload (s : State) : Option (List Byte) := Memory.readFrom s.src 0 s.srcLen.toNat

end Sys2Proof.Machine
end

