-- ==== Sys2Proof/Machine/FrameBuilder.lean ====
section
/-!
DEFINITION. The Frame Builder: BUILD (40_frame_builder.md).
-/
namespace Sys2Proof.Machine

/-! ### Validation -/

/-- The three conditions of 40_frame_builder.md R71 on a load address and a source length n ≥ 1, as
exact arithmetic on naturals (00_scope.md R12). -/
def loadAddressInvalid (limit loadAddr n : Nat) : Bool :=
  decide (limit < loadAddr) || decide (0xFFFF < loadAddr) || decide (0xFFFF < loadAddr + n - 1)

/-- The first of BUILD's four checks that fails, in the order of 60_exceptions.md R116, or none. -/
def buildErrorAt (limit : Nat) (s : State) : Option ErrorCode :=
  let n := s.srcLen.toNat
  let baud := s.baud.toNat
  if limit < n then some .fileTooLarge
  else if n = 0 then some .emptyInput
  else if s.fmt = .binaryLoader ∧ loadAddressInvalid limit s.loadAddr.toNat n = true then
    some .invalidLoadAddress
  else if baud < Config.baudMin ∨ Config.baudMax < baud then some .invalidBaudRate
  else none

/-! ### Checksum -/

/-- The two accumulators over the rest of a payload, on exact naturals: the last byte goes into lo
only, its carry dropped (40_frame_builder.md R81). -/
def checksumFrom (lo hi : Nat) : List Byte → BitVec 16
  | [] => BitVec.ofNat 16 ((lo &&& 0xFF) ||| (hi <<< 8))
  | b :: rest =>
    match rest with
    | [] => BitVec.ofNat 16 (((lo + b.toNat) &&& 0xFF) ||| (hi <<< 8))
    | _ :: _ =>
      checksumFrom ((lo + b.toNat) &&& 0xFF)
        ((hi + b.toNat + (((lo + b.toNat) >>> 8) &&& 1)) &&& 0xFF) rest

/-- CHECKSUM(p) (40_frame_builder.md R81). -/
def checksum (p : List Byte) : BitVec 16 := checksumFrom 0 0 p

/-! ### Frame layouts -/

/-- A 16-bit field as two bytes, the high byte first (30_encoding.md R61). -/
def bigEndian16 (v : BitVec 16) : List Byte := [v.extractLsb' 8 8, v.extractLsb' 0 8]

/-- The TapeImage frame: padding, a sync byte unless the payload begins with one, the payload
(40_frame_builder.md R74 to R76). -/
def tapeImageFrame (p : List Byte) : List Byte :=
  List.replicate Config.padLen 0 ++ (if p.head? = some Config.sync then [] else [Config.sync]) ++ p

/-- The BinaryLoader frame: padding, the 5-byte header, the payload, and the trailer
(40_frame_builder.md R74, R77 to R80). The end address is load address + n - 1. -/
def binaryLoaderFrame (loadAddr : Nat) (p : List Byte) : List Byte :=
  List.replicate Config.padLen 0 ++ [Config.sync] ++ bigEndian16 (BitVec.ofNat 16 loadAddr)
    ++ bigEndian16 (BitVec.ofNat 16 (loadAddr + p.length - 1)) ++ p
    ++ [0, 0, Config.sync] ++ bigEndian16 (checksum p)

/-- The frame of a payload in the selected format. -/
def State.frameOf (s : State) (p : List Byte) : List Byte :=
  match s.fmt with
  | .tapeImage => tapeImageFrame p
  | .binaryLoader => binaryLoaderFrame s.loadAddr.toNat p

/-! ### The command -/

/-- floor(48000 / (2 × BAUD)) (40_frame_builder.md R84). -/
def halfBitOf (baud : Word) : BitVec 15 := BitVec.ofNat 15 (Config.sampleRate / (2 * baud.toNat))

/-- The writes of a successful BUILD of frame f (40_frame_builder.md R83 to R85). -/
def State.installFrame (s : State) (f : List Byte) : State :=
  { s with frame := Memory.writeFrom s.frame 0 f, frameLen := BitVec.ofNat 17 f.length,
           halfBit := halfBitOf s.baud, ctrl := .ready, errCode := .none, cursor := Cursor.idle }

/-- BUILD for a given FILE_SIZE_LIMIT (40_frame_builder.md R67). -/
def buildAt (limit : Nat) (s : State) : Host.Outcome State Fault Refusal :=
  if s.ctrl = .playing then .next s.raiseIllegalCommand.respondWrite
  else match buildErrorAt limit s with
    | some code => .next (s.failBuild code).respondWrite
    | none =>
      match s.payload with
      | none => .fault .unwrittenSource
      | some p => .next (s.installFrame (s.frameOf p)).respondWrite

/-- BUILD (40_frame_builder.md R67). -/
def execBuild (s : State) : Host.Outcome State Fault Refusal := buildAt Config.fileSizeLimit s

end Sys2Proof.Machine
end

