-- ==== Sys2Proof/Machine/HostBus.lean ====
section
/-!
DEFINITION. The control commands NOP and STOP and the host-bus operations
(42_control_and_host_bus.md). An operation whose index is outside its window is no legal transaction
and answers BUS_ERROR, as the exceptions of R109 to R111 say; the decoder never gives one.
-/
namespace Sys2Proof.Machine

/-- NOP: no state change; the write responds OK (42_control_and_host_bus.md R104, R105). -/
def execNop (s : State) : Host.Outcome State Fault Refusal := .next s.respondWrite

/-- STOP (42_control_and_host_bus.md R106). -/
def execStop (s : State) : Host.Outcome State Fault Refusal := .next s.release.respondWrite

/-- REG_WRITE (42_control_and_host_bus.md R107). -/
def execRegWrite (r : ParamReg) (w : Word) (s : State) : Host.Outcome State Fault Refusal :=
  .next (writeRegister s w r).respondWrite

/-- REG_READ (42_control_and_host_bus.md R108). -/
def execRegRead (r : ReadReg) (s : State) : Host.Outcome State Fault Refusal :=
  .next (s.respondRead (readRegisterAt Config.fileSizeLimit s r))

/-- SRC_WRITE for a given FILE_SIZE_LIMIT (42_control_and_host_bus.md R109). -/
def srcWriteAt (limit i : Nat) (v : Byte) (s : State) : Host.Outcome State Fault Refusal :=
  if i < limit then .next { s with src := Memory.write s.src i v }.respondWrite
  else .next s.respondBusError

/-- SRC_WRITE (42_control_and_host_bus.md R109). -/
def execSrcWrite (i : Nat) (v : Byte) (s : State) : Host.Outcome State Fault Refusal :=
  srcWriteAt Config.fileSizeLimit i v s

/-- SRC_READ for a given FILE_SIZE_LIMIT (42_control_and_host_bus.md R110). -/
def srcReadAt (limit i : Nat) (s : State) : Host.Outcome State Fault Refusal :=
  if i < limit then
    match Memory.read s.src i with
    | some b => .next (s.respondRead (b.setWidth 32))
    | none => .fault .unwrittenSource
  else .next s.respondBusError

/-- SRC_READ (42_control_and_host_bus.md R110). -/
def execSrcRead (i : Nat) (s : State) : Host.Outcome State Fault Refusal :=
  srcReadAt Config.fileSizeLimit i s

/-- FRAME_READ for a given FILE_SIZE_LIMIT: the byte below FRAME_LEN, 0 from there on
(42_control_and_host_bus.md R111). -/
def frameReadAt (limit i : Nat) (s : State) : Host.Outcome State Fault Refusal :=
  if inFrameWindow limit i then
    .next (s.respondRead (if i < s.frameLen.toNat then (s.frameByte i).setWidth 32 else 0))
  else .next s.respondBusError

/-- FRAME_READ (42_control_and_host_bus.md R111). -/
def execFrameRead (i : Nat) (s : State) : Host.Outcome State Fault Refusal :=
  frameReadAt Config.fileSizeLimit i s

end Sys2Proof.Machine
end

