-- ==== Sys2Proof/Machine/SampleGenerator.lean ====
section
/-!
DEFINITION. The Sample Generator: START and TICK (41_sample_generator.md).
-/
namespace Sys2Proof.Machine

/-- START: legal in READY only; the cursor is set for playback (41_sample_generator.md R89). -/
def execStart (s : State) : Host.Outcome State Fault Refusal :=
  if s.ctrl = .ready then
    .next { s with ctrl := .playing, cursor := ⟨0, 7, true, s.halfBit - 1, false⟩ }.respondWrite
  else .next s.raiseIllegalCommand.respondWrite

/-- The bit that is sent: bit BIT_POS of FRAME[BYTE_POS] (41_sample_generator.md R92). -/
def State.currentBit (s : State) : Bool :=
  (s.frameByte s.cursor.bytePos.toNat).getLsbD s.cursor.bitPos.toNat

/-- A bit is complete: the next bit, or the next byte, or the end of the frame
(41_sample_generator.md R95, R96). -/
def State.completeBit (s : State) : State :=
  let c := s.cursor
  if c.bitPos = 0 then
    let c' := { c with bitPos := 7, bytePos := c.bytePos + 1 }
    if c'.bytePos = s.frameLen then { s with ctrl := .finished, cursor := { c' with done := true } }
    else { s with cursor := c' }
  else { s with cursor := { c with bitPos := c.bitPos - 1 } }

/-- The counter runs down; when it is 0 it is reloaded and the half-bit ends, which completes a bit
when PHASE comes back to 1 (41_sample_generator.md R94, R95). -/
def State.advanceCursor (s : State) : State :=
  let c := s.cursor
  if c.hbCnt = 0 then
    let s' := { s with cursor := { c with hbCnt := s.halfBit - 1, phase := !c.phase } }
    if s'.cursor.phase then s'.completeBit else s'
  else { s with cursor := { c with hbCnt := c.hbCnt - 1 } }

/-- TICK: silence outside PLAYING, and in PLAYING one half-bit sample and the cursor's advance
(41_sample_generator.md R90, R91, R93). -/
def execTick (s : State) : Host.Outcome State Fault Refusal :=
  if s.ctrl = .playing then
    .next (s.emit (polarity s.currentBit s.cursor.phase)).advanceCursor
  else .next (s.emit .zero)

end Sys2Proof.Machine
end

