-- ==== Sys2Proof/Machine/Dispatch.lean ====
section
/-!
DEFINITION. The dispatcher: one meaning for each operation.
-/
namespace Sys2Proof.Machine

/-- The meaning of an operation. -/
def exec (i : Instr) (s : State) : Host.Outcome State Fault Refusal :=
  match i with
  | .nop => Sys2Proof.Machine.execNop s
  | .build => Sys2Proof.Machine.execBuild s
  | .start => Sys2Proof.Machine.execStart s
  | .stop => Sys2Proof.Machine.execStop s
  | .tick => Sys2Proof.Machine.execTick s
  | .regWrite r w => Sys2Proof.Machine.execRegWrite r w s
  | .regRead r => Sys2Proof.Machine.execRegRead r s
  | .srcWrite k v => Sys2Proof.Machine.execSrcWrite k v s
  | .srcRead k => Sys2Proof.Machine.execSrcRead k s
  | .frameRead k => Sys2Proof.Machine.execFrameRead k s

end Sys2Proof.Machine
end

