-- ==== Sys2Proof/Machine/Step.lean ====
section
/-!
DEFINITION. One transition of the block: the earliest input that is left is decoded and carried out
(00_scope.md R6, R13; 20_memory.md R49).
-/
namespace Sys2Proof.Machine

/-- One transition. With no input left nothing happens. A reserved CTRL word performs the
IllegalCommand entry and responds OK (30_encoding.md R56, 42_control_and_host_bus.md R104); an illegal
transaction responds BUS_ERROR (20_memory.md R41); RST resets (70_reset_and_hazards.md R130). -/
def step (s : State) : Host.Outcome State Fault Refusal :=
  match s.nextInput with
  | none => .next s
  | some (x, t) =>
    match decode x with
    | .instr i => exec i t
    | .illegalCommand => .next t.raiseIllegalCommand.respondWrite
    | .busError => .next t.respondBusError
    | .reset => .next t.performReset

/-- The state with the input of a word of spec/opcode_table.json as its next input. -/
def State.withFetchWord (s : State) (nbits w : Nat) : State :=
  match tableInput nbits w with
  | some x => { s with inputs := x :: s.inputs }
  | none => s

end Sys2Proof.Machine
end

