-- ==== Sys2Proof/Safety.lean ====
section
/-!
DEFINITION. What counts as a good state and a legal transaction, and the vocabulary of the claims:
runs of TICKs, valid builds, the invariant. Every definition is written from the rule it cites, not
from the meanings it is used to judge.
-/
namespace Sys2Proof.Machine

/-! ### Legal transactions -/

/-- 20_memory.md R40: a transaction is admitted by one of the four rows of the table. -/
def Admitted (limit : Nat) (r : Request) : Prop :=
  (r.kind = .read ∧ r.width = .w32 ∧ r.addr.toNat % 4 = 0 ∧ 0x04 ≤ r.addr.toNat ∧ r.addr.toNat ≤ 0x34)
  ∨ (r.kind = .write ∧ r.width = .w32 ∧
      (r.addr = 0x00 ∨ r.addr = 0x0C ∨ r.addr = 0x10 ∨ r.addr = 0x14 ∨ r.addr = 0x18))
  ∨ (r.width = .w8 ∧ 0x40000 ≤ r.addr.toNat ∧ r.addr.toNat < 0x40000 + limit)
  ∨ (r.kind = .read ∧ r.width = .w8 ∧ 0x80000 ≤ r.addr.toNat ∧ r.addr.toNat < 0x80000 + (limit + 266))

/-! ### Builds -/

/-- The four checks of BUILD all pass (40_frame_builder.md R69 to R72). -/
def BuildValid (limit : Nat) (s : State) : Prop :=
  1 ≤ s.srcLen.toNat ∧ s.srcLen.toNat ≤ limit
  ∧ (s.fmt = .binaryLoader →
      s.loadAddr.toNat ≤ limit ∧ s.loadAddr.toNat ≤ 0xFFFF ∧ s.loadAddr.toNat + s.srcLen.toNat - 1 ≤ 0xFFFF)
  ∧ 1 ≤ s.baud.toNat ∧ s.baud.toNat ≤ 24000

/-- SRC[0..SRC_LEN-1] is written and holds the bytes p (40_frame_builder.md R73). -/
def HoldsPayload (s : State) (p : List Byte) : Prop :=
  p.length = s.srcLen.toNat ∧ ∀ i, i < s.srcLen.toNat → Memory.read s.src i = p[i]?

/-- FRAME from `base` holds the bytes bs. -/
def FrameHolds (m : Memory) (base : Nat) (bs : List Byte) : Prop :=
  ∀ i, i < bs.length → Memory.read m (base + i) = bs[i]?

/-- The 16-bit field that a reader recovers from two frame bytes (30_encoding.md R61). -/
def State.field16 (s : State) (k : Nat) : Nat := (s.frameByte k).toNat * 256 + (s.frameByte (k + 1)).toNat

/-! ### Runs of TICKs -/

/-- k TICKs with no other transition between them (30_encoding.md R65). -/
def tickTimes : Nat → State → Host.Outcome State Fault Refusal
  | 0, s => .next s
  | k + 1, s =>
    match tickTimes k s with
    | .next t => exec .tick t
    | .fault r => .fault r
    | .refused r => .refused r

/-- The symbol that the k-th of a run of TICKs emits, if the run gets there. -/
def symbolOfTick (k : Nat) (s : State) : Option Symbol :=
  match tickTimes k s with
  | .next t => some t.sampleOut
  | _ => none

/-- PHASE after k TICKs, if the run gets there. -/
def phaseAfter (k : Nat) (s : State) : Option Bool :=
  match tickTimes k s with
  | .next t => some t.cursor.phase
  | _ => none

/-- How many of the first k TICKs change PHASE (41_sample_generator.md R100). -/
def phaseToggles : Nat → State → Nat
  | 0, _ => 0
  | k + 1, s => phaseToggles k s + (if phaseAfter k s = phaseAfter (k + 1) s then 0 else 1)

/-- Bit m of the frame in transmission order: byte by byte, bit 7 first (30_encoding.md R62). -/
def State.frameBit (s : State) (m : Nat) : Bool := (s.frameByte (m / 8)).getLsbD (7 - m % 8)

/-- The next TICK is the last of the frame's last half-bit, the one that moves PLAYING to FINISHED
(41_sample_generator.md R94 to R96). -/
def EndsFrame (s : State) : Prop :=
  s.cursor.hbCnt = 0 ∧ s.cursor.phase = false ∧ s.cursor.bitPos = 0 ∧ s.cursor.bytePos + 1 = s.frameLen

/-! ### The invariant -/

/-- There is a frame: its length and half-bit are in range (10_state.md R25, R26) and every byte of it
has been written (R34). -/
def HasFrame (limit : Nat) (s : State) : Prop :=
  257 ≤ s.frameLen.toNat ∧ s.frameLen.toNat ≤ limit + 266
  ∧ 1 ≤ s.halfBit.toNat ∧ s.halfBit.toNat ≤ 24000
  ∧ ∀ i, i < s.frameLen.toNat → (Memory.read s.frame i).isSome = true

/-- The invariants 1 to 5 of 10_state.md R32, with the ranges of R25 and R26. -/
def CursorInv (limit : Nat) (s : State) : Prop :=
  (s.ctrl = .idle ∨ s.ctrl = .error → s.frameLen = 0 ∧ s.halfBit = 0 ∧ s.cursor = Cursor.idle)
  ∧ (s.ctrl = .ready → HasFrame limit s ∧ s.cursor = Cursor.idle)
  ∧ (s.ctrl = .playing → HasFrame limit s ∧ s.cursor.done = false
      ∧ s.cursor.bytePos.toNat < s.frameLen.toNat ∧ s.cursor.hbCnt.toNat ≤ s.halfBit.toNat - 1)
  ∧ (s.ctrl = .finished → HasFrame limit s ∧ s.cursor.done = true ∧ s.cursor.bytePos = s.frameLen
      ∧ s.cursor.bitPos = 7 ∧ s.cursor.phase = true ∧ s.cursor.hbCnt.toNat = s.halfBit.toNat - 1)
  ∧ (s.cursor.done = true ↔ s.ctrl = .finished)

/-- What ERR_CODE can hold (60_exceptions.md R113, R120, R121): a failing BUILD's code or
IllegalCommand's in ERROR, none or IllegalCommand's elsewhere; IllegalCommand only beside ILL. -/
def ErrorInv (s : State) : Prop :=
  (s.ctrl = .error → s.errCode ≠ .none ∧ s.errCode ≠ .unreadable ∧ s.errCode ≠ .audioDeviceError)
  ∧ (s.ctrl ≠ .error → s.errCode = .none ∨ s.errCode = .illegalCommand)
  ∧ (s.errCode = .illegalCommand → s.ill = true)

/-- The memories are canonical and stay inside their arrays (10_state.md R33, R34). -/
def MemoryInv (limit : Nat) (s : State) : Prop :=
  Memory.wf s.src = true ∧ Memory.below limit s.src = true
  ∧ Memory.wf s.frame = true ∧ Memory.below (Config.frameCapacity limit) s.frame = true

/-- The invariant of the block. -/
def BlockInv (s : State) : Prop :=
  CursorInv Config.fileSizeLimit s ∧ ErrorInv s ∧ MemoryInv Config.fileSizeLimit s

/-! ### The controller's transition table -/

/-- STATUS.STATE after an operation, by the table of 42_control_and_host_bus.md R112. -/
inductive ControllerStep (limit : Nat) (s : State) : Instr → Controller → Prop where
  | nop : ControllerStep limit s .nop s.ctrl
  | buildValid : s.ctrl ≠ .playing → BuildValid limit s → ControllerStep limit s .build .ready
  | buildInvalid : s.ctrl ≠ .playing → ¬ BuildValid limit s → ControllerStep limit s .build .error
  | buildPlaying : s.ctrl = .playing → ControllerStep limit s .build .playing
  | startReady : s.ctrl = .ready → ControllerStep limit s .start .playing
  | startElsewhere : s.ctrl ≠ .ready → ControllerStep limit s .start s.ctrl
  | stop : ControllerStep limit s .stop .idle
  | tickPlaying : s.ctrl = .playing → ¬ EndsFrame s → ControllerStep limit s .tick .playing
  | tickLast : s.ctrl = .playing → EndsFrame s → ControllerStep limit s .tick .finished
  | tickElsewhere : s.ctrl ≠ .playing → ControllerStep limit s .tick s.ctrl
  | regWrite (r : ParamReg) (w : Word) : ControllerStep limit s (.regWrite r w) s.ctrl
  | regRead (r : ReadReg) : ControllerStep limit s (.regRead r) s.ctrl
  | srcWrite (i : Nat) (v : Byte) : ControllerStep limit s (.srcWrite i v) s.ctrl
  | srcRead (i : Nat) : ControllerStep limit s (.srcRead i) s.ctrl
  | frameRead (i : Nat) : ControllerStep limit s (.frameRead i) s.ctrl

end Sys2Proof.Machine
end

