-- ==== Sys2Proof/Certificates/Slice0/Obligations.lean ====
section
/-!
DEFINITION. The statements for the provers. Each cites the rules of spec/ that it formalises.

Three fields of State are the model's own. `inputs` holds the transitions still to come (log entry
1), `response` the last bus response (log entry 5), and `freeCount` counts unstated values (log entry
4). A statement about an operation that writes over the bus says "for some v and n" of the rdata of
its OK response and of that count, so that nothing rests on either.
-/

open Sys2Proof Sys2Proof.Machine

/-! ### Encoding, decoding, legality -/

/-- The encoding of an operation decodes to that operation, with every operand value that is legal
(30_encoding.md R55, R57, R65; 42_control_and_host_bus.md R107 to R111). -/
def Obligations.DecodeOfEncodeIsTheInstruction : Prop :=
  ∀ i : Instr, i.WellFormed → decode (encode i) = .instr i

/-- No bit of a transaction that an operation uses is dropped: what decodes to an operation is that
operation's encoding, up to the data lines it does not use (20_memory.md R39). -/
def Obligations.DecodedTransactionsAreTheirEncodings : Prop :=
  ∀ (r : Request) (i : Instr), decode (.bus r) = .instr i →
    i.WellFormed ∧ ∃ r', encode i = .bus r' ∧ r'.kind = r.kind ∧ r'.width = r.width ∧ r'.addr = r.addr
      ∧ (r.kind = .write → r.width = .w32 → r'.wdata = r.wdata)
      ∧ (r.kind = .write → r.width = .w8 → r'.wdata.toNat = r.wdata.toNat % 256)

/-- The command map of 30_encoding.md R54 and R55 over every 32-bit word. -/
def Obligations.CommandWordsDecodeByTheMap : Prop :=
  ∀ w : Word, decode (.bus ⟨.write, .w32, 0x00000, w⟩) =
    if w = 0x00000000 then .instr .nop
    else if w = 0x00000001 then .instr .build
    else if w = 0x00000002 then .instr .start
    else if w = 0x00000003 then .instr .stop
    else .illegalCommand

/-- A few transactions written out from the encoding lines of 42_control_and_host_bus.md, one for each
family. A sanity statement. -/
def Obligations.SampleTransactionsDecode : Prop :=
  decode (.bus ⟨.write, .w32, 0x00000, 0x00000001⟩) = .instr .build
  ∧ decode .tick = .instr .tick
  ∧ decode (.bus ⟨.write, .w32, 0x00010, 0x00000960⟩) = .instr (.regWrite .baud 2400)
  ∧ decode (.bus ⟨.read, .w32, 0x00028, 0x00000000⟩) = .instr (.regRead .cursorBit)
  ∧ decode (.bus ⟨.write, .w8, 0x40000, 0x000000E6⟩) = .instr (.srcWrite 0 0xE6)
  ∧ decode (.bus ⟨.read, .w8, 0x40000, 0x00000000⟩) = .instr (.srcRead 0)
  ∧ decode (.bus ⟨.read, .w8, 0x80003, 0x00000000⟩) = .instr (.frameRead 3)

/-- A transaction is answered other than by BUS_ERROR exactly when a row of the table of 20_memory.md
R40 admits it. -/
def Obligations.TransactionsAreLegalExactlyByTheTable : Prop :=
  ∀ r : Request, decode (.bus r) ≠ .busError ↔ Admitted Config.fileSizeLimit r

/-- An 8-bit write uses wdata[7:0] only, and a read uses no data line (20_memory.md R39). -/
def Obligations.UnusedDataLinesAreIgnored : Prop :=
  (∀ (width : AccessWidth) (a : HostAddr) (w w' : Word),
    decode (.bus ⟨.read, width, a, w⟩) = decode (.bus ⟨.read, width, a, w'⟩))
  ∧ ∀ (a : HostAddr) (w w' : Word), w.toNat % 256 = w'.toNat % 256 →
    decode (.bus ⟨.write, .w8, a, w⟩) = decode (.bus ⟨.write, .w8, a, w'⟩)

/-! ### One transition -/

/-- When the earliest input decodes to an operation, the transition is that operation at the state
without that input (00_scope.md R6, R13). The queue is the model's (log entry 1). -/
def Obligations.StepRunsTheDecodedInstruction : Prop :=
  ∀ (s : State) (x : Input) (rest : List Input) (i : Instr),
    s.inputs = x :: rest → decode x = .instr i → step s = exec i { s with inputs := rest }

/-- With no input left nothing changes. The model's choice (log entry 1). -/
def Obligations.StepWithoutInputChangesNothing : Prop :=
  ∀ s : State, s.inputs = [] → step s = .next s

/-- 20_memory.md R41: an illegal transaction answers BUS_ERROR with rdata 0 and changes nothing else. -/
def Obligations.IllegalTransactionsOnlyAnswerBusError : Prop :=
  ∀ (s : State) (r : Request) (rest : List Input), s.inputs = .bus r :: rest →
    ¬ Admitted Config.fileSizeLimit r →
    step s = .next { s with inputs := rest, response := some ⟨.busError, 0x00000000⟩ }

/-- 42_control_and_host_bus.md R104: a CTRL write runs the command its word names, a reserved word
raises IllegalCommand, and the transaction responds OK in every case that has a next state. -/
def Obligations.ControlWritesRunTheirCommand : Prop :=
  ∀ (s : State) (w : Word) (rest : List Input), s.inputs = .bus ⟨.write, .w32, 0x00000, w⟩ :: rest →
    let u : State := { s with inputs := rest }
    (w = 0x00000000 → step s = exec .nop u) ∧ (w = 0x00000001 → step s = exec .build u)
    ∧ (w = 0x00000002 → step s = exec .start u) ∧ (w = 0x00000003 → step s = exec .stop u)
    ∧ (w ≠ 0x00000000 → w ≠ 0x00000001 → w ≠ 0x00000002 → w ≠ 0x00000003 → ∃ v n, step s = .next
        { u with ill := true, errCode := .illegalCommand, response := some ⟨.ok, v⟩, freeCount := n })
    ∧ ∀ t, step s = .next t → ∃ v, t.response = some ⟨.ok, v⟩

/-- 60_exceptions.md R120 and 30_encoding.md R56: an illegal command, which is a reserved CTRL word,
BUILD in PLAYING or START outside READY, sets ILL and ERR_CODE and changes nothing else. -/
def Obligations.IllegalCommandsSetOnlyIllAndTheCode : Prop :=
  (∀ (s : State) (w : Word) (rest : List Input), s.inputs = .bus ⟨.write, .w32, 0x00000, w⟩ :: rest →
    w ≠ 0x00000000 → w ≠ 0x00000001 → w ≠ 0x00000002 → w ≠ 0x00000003 → ∃ v n, step s = .next
      { s with inputs := rest, ill := true, errCode := .illegalCommand,
               response := some ⟨.ok, v⟩, freeCount := n })
  ∧ (∀ s : State, s.ctrl = .playing → ∃ v n, exec .build s = .next
      { s with ill := true, errCode := .illegalCommand, response := some ⟨.ok, v⟩, freeCount := n })
  ∧ ∀ s : State, s.ctrl ≠ .ready → ∃ v n, exec .start s = .next
      { s with ill := true, errCode := .illegalCommand, response := some ⟨.ok, v⟩, freeCount := n }

/-- 70_reset_and_hazards.md R130: RST writes every register and leaves every SRC byte unwritten. FRAME
is unspecified after it and, with FRAME_LEN 0, unobservable, so nothing is said of its bytes. That no
response is held and that the count goes on are the model's choices (log entries 4, 5), left open
here. -/
def Obligations.ResetTransitionWritesTheResetValues : Prop :=
  ∀ (s : State) (rest : List Input), s.inputs = .rst :: rest → ∃ t, step s = .next t
    ∧ t.fmt = .tapeImage ∧ t.baud = 1300 ∧ t.loadAddr = 0 ∧ t.srcLen = 0
    ∧ t.ctrl = .idle ∧ t.ill = false ∧ t.errCode = .none
    ∧ t.frameLen = 0 ∧ t.halfBit = 0
    ∧ t.cursor.bytePos = 0 ∧ t.cursor.bitPos = 7 ∧ t.cursor.phase = true ∧ t.cursor.hbCnt = 0
    ∧ t.cursor.done = false
    ∧ t.sampleOut = .zero ∧ t.sampleSym = 0 ∧ t.sampleL = 0x00000000 ∧ t.sampleR = 0x00000000
    ∧ (∀ i, Memory.read t.src i = none) ∧ t.inputs = rest

/-- 70_reset_and_hazards.md R131: what a host reads right after reset, the sample ports, and the
memories: SRC unwritten, FRAME unobservable. -/
def Obligations.RegistersAfterResetReadAsTheTable : Prop :=
  (∀ r : ReadReg, ∃ v : Word, exec (.regRead r) State.reset = .next
      { State.reset with response := some ⟨.ok, v⟩ }
    ∧ v.toNat = match r with
      | .baud => 0x00000514
      | .cursorBit => 0x0000000F
      | .limit => Config.fileSizeLimit
      | _ => 0x00000000)
  ∧ State.reset.sampleSym = 0 ∧ State.reset.sampleL = 0x00000000 ∧ State.reset.sampleR = 0x00000000
  ∧ (∀ k, Memory.read State.reset.src k = none)
  ∧ ∀ k, k < Config.frameCapacity Config.fileSizeLimit → exec (.frameRead k) State.reset = .next
      { State.reset with response := some ⟨.ok, 0x00000000⟩ }

/-! ### Commands -/

/-- 42_control_and_host_bus.md R105: CTRL word 0 is NOP, which changes no state, in every state. -/
def Obligations.NopChangesNoState : Prop :=
  decode (.bus ⟨.write, .w32, 0x00000, 0x00000000⟩) = .instr .nop
  ∧ ∀ s : State, ∃ v n, exec .nop s = .next { s with response := some ⟨.ok, v⟩, freeCount := n }

/-- 42_control_and_host_bus.md R106: CTRL word 3 is STOP; its effect in every state, the TICK after
it, and a BUILD after it, which finds the operands a BUILD before it would have found. -/
def Obligations.StopReleasesTheFrameInEveryState : Prop :=
  decode (.bus ⟨.write, .w32, 0x00000, 0x00000003⟩) = .instr .stop
  ∧ ∀ s : State, ∃ t v n, exec .stop s = .next t
    ∧ t = { s with ctrl := .idle, errCode := .none, ill := false, frameLen := 0, halfBit := 0,
                   cursor := ⟨0, 7, true, 0, false⟩, response := some ⟨.ok, v⟩, freeCount := n }
    ∧ exec .tick t = .next { t with sampleOut := .zero }
    ∧ ∀ u, exec .build t = .next u → s.ctrl ≠ .playing → ∃ u', exec .build s = .next u'
        ∧ u'.ctrl = u.ctrl ∧ u'.frameLen = u.frameLen ∧ u'.halfBit = u.halfBit ∧ u'.frame = u.frame

/-- 41_sample_generator.md R89: CTRL word 2 is START. In READY it sets the cursor for playback and
enters PLAYING, and the first TICK then sends bit 7 of FRAME[0]; in every other state it is an
IllegalCommand. That HALF_BIT is not 0 in READY is part of the invariant. -/
def Obligations.StartBeginsPlaybackOnlyFromReady : Prop :=
  decode (.bus ⟨.write, .w32, 0x00000, 0x00000002⟩) = .instr .start
  ∧ (∀ s : State, s.ctrl = .ready → 1 ≤ s.halfBit.toNat → ∃ t c v n, exec .start s = .next t
    ∧ t = { s with ctrl := .playing, cursor := ⟨0, 7, true, c, false⟩,
                   response := some ⟨.ok, v⟩, freeCount := n }
    ∧ c.toNat = s.halfBit.toNat - 1
    ∧ ∃ u, exec .tick t = .next u
      ∧ u.sampleOut = if (s.frameByte 0).getLsbD 7 then .neg else .pos)
  ∧ ∀ s : State, s.ctrl ≠ .ready → ∃ v n, exec .start s = .next
      { s with ill := true, errCode := .illegalCommand, response := some ⟨.ok, v⟩, freeCount := n }

/-! ### BUILD -/

/-- 60_exceptions.md R116 and 40_frame_builder.md R69 to R72, R86: outside PLAYING a BUILD that does
not pass validation reports its first failing check and releases the frame. -/
def Obligations.FailingBuildReportsTheFirstFailingCheck : Prop :=
  ∀ s : State, s.ctrl ≠ .playing → ¬ BuildValid Config.fileSizeLimit s →
    let len := s.srcLen.toNat
    let code : ErrorCode :=
      if Config.fileSizeLimit < len then .fileTooLarge
      else if len = 0 then .emptyInput
      else if s.fmt = .binaryLoader ∧ (Config.fileSizeLimit < s.loadAddr.toNat
          ∨ 0xFFFF < s.loadAddr.toNat ∨ 0xFFFF < s.loadAddr.toNat + len - 1) then .invalidLoadAddress
      else .invalidBaudRate
    ∃ v n, exec .build s = .next { s with
      ctrl := .error, errCode := code, frameLen := 0, halfBit := 0,
      cursor := ⟨0, 7, true, 0, false⟩, response := some ⟨.ok, v⟩, freeCount := n }

/-- 60_exceptions.md R117: BUILD in PLAYING is an IllegalCommand whatever its operands hold; it
validates nothing and playback goes on. -/
def Obligations.BuildWhilePlayingIsIllegalWhateverItsOperands : Prop :=
  ∀ (s : State) (f : Format) (b a l : Word), s.ctrl = .playing →
    let u : State := { s with fmt := f, baud := b, loadAddr := a, srcLen := l }
    ∃ v n, exec .build u = .next
      { u with ill := true, errCode := .illegalCommand, response := some ⟨.ok, v⟩, freeCount := n }

/-- 40_frame_builder.md R73: outside PLAYING a BUILD that passes validation stops with UnwrittenSource
exactly when one of its source bytes is unwritten. -/
def Obligations.BuildFaultsExactlyOnUnwrittenSource : Prop :=
  ∀ s : State, s.ctrl ≠ .playing → BuildValid Config.fileSizeLimit s →
    (exec .build s = .fault .unwrittenSource ↔
      ∃ i, i < s.srcLen.toNat ∧ Memory.read s.src i = none)

/-- 30_encoding.md R59 and 40_frame_builder.md R74 to R76, R83 to R85: a valid BUILD in TapeImage mode
lays the frame out as the table says, latches its length and half-bit, enters READY and changes
nothing else. -/
def Obligations.TapeImageBuildWritesTheFrame : Prop :=
  ∀ (s : State) (p : List Byte), s.ctrl ≠ .playing → s.fmt = .tapeImage →
    BuildValid Config.fileSizeLimit s → HoldsPayload s p →
    ∃ t v n, exec .build s = .next t
      ∧ t = { s with frame := t.frame, frameLen := t.frameLen, halfBit := t.halfBit, ctrl := .ready,
                     errCode := .none, cursor := ⟨0, 7, true, 0, false⟩,
                     response := some ⟨.ok, v⟩, freeCount := n }
      ∧ t.halfBit.toNat = 48000 / (2 * s.baud.toNat)
      ∧ let d := if p[0]? = some 0xE6 then 0 else 1
        t.frameLen.toNat = 256 + d + s.srcLen.toNat
        ∧ (∀ k, k < 256 → Memory.read t.frame k = some 0x00)
        ∧ (d = 1 → Memory.read t.frame 256 = some 0xE6)
        ∧ (∀ k, k < s.srcLen.toNat → Memory.read t.frame (256 + d + k) = p[k]?)
        ∧ ∀ k, t.frameLen.toNat ≤ k → Memory.read t.frame k = Memory.read s.frame k

/-- 30_encoding.md R60 and 40_frame_builder.md R74, R77 to R80, R82 to R85: a valid BUILD in
BinaryLoader mode lays the frame out as the table says, latches its length and half-bit, enters READY
and changes nothing else. -/
def Obligations.BinaryLoaderBuildWritesTheFrame : Prop :=
  ∀ (s : State) (p : List Byte), s.ctrl ≠ .playing → s.fmt = .binaryLoader →
    BuildValid Config.fileSizeLimit s → HoldsPayload s p →
    ∃ t v n, exec .build s = .next t
      ∧ t = { s with frame := t.frame, frameLen := t.frameLen, halfBit := t.halfBit, ctrl := .ready,
                     errCode := .none, cursor := ⟨0, 7, true, 0, false⟩,
                     response := some ⟨.ok, v⟩, freeCount := n }
      ∧ t.halfBit.toNat = 48000 / (2 * s.baud.toNat)
      ∧ let len := s.srcLen.toNat
        let A := s.loadAddr.toNat
        let E := A + len - 1
        let C := (checksum p).toNat
        t.frameLen.toNat = 266 + len
        ∧ (∀ k, k < 256 → Memory.read t.frame k = some 0x00)
        ∧ FrameHolds t.frame 256 [0xE6, BitVec.ofNat 8 (A / 256), BitVec.ofNat 8 (A % 256),
            BitVec.ofNat 8 (E / 256), BitVec.ofNat 8 (E % 256)]
        ∧ FrameHolds t.frame 261 p
        ∧ FrameHolds t.frame (261 + len) [0x00, 0x00, 0xE6, BitVec.ofNat 8 (C / 256),
            BitVec.ofNat 8 (C % 256)]
        ∧ ∀ k, t.frameLen.toNat ≤ k → Memory.read t.frame k = Memory.read s.frame k

/-- 40_frame_builder.md R81: the checksum of every payload, by the closed form of the rule, and the
rule's example. The payload is written q followed by its last byte b. -/
def Obligations.ChecksumHasTheClosedForm : Prop :=
  (∀ (q : List Byte) (b : Byte),
    let X := (257 * (q.map BitVec.toNat).sum) % 65536
    (checksum (q ++ [b])).toNat = X / 256 * 256 + (X % 256 + b.toNat) % 256)
  ∧ checksum [0x01, 0x02, 0x03] = 0x0306

/-- 40_frame_builder.md R84: a successful BUILD latches floor(48000 / (2 × BAUD)), which is 1 from
BAUD = 12001 and 24000 at BAUD = 1, and a later write of a parameter register leaves it alone. -/
def Obligations.HalfBitIsLatchedByBuild : Prop :=
  (∀ s t : State, s.ctrl ≠ .playing → exec .build s = .next t → t.ctrl = .ready →
    t.halfBit.toNat = 48000 / (2 * s.baud.toNat)
    ∧ 1 ≤ t.halfBit.toNat ∧ t.halfBit.toNat ≤ 24000
    ∧ (12001 ≤ s.baud.toNat → t.halfBit.toNat = 1) ∧ (s.baud.toNat = 1 → t.halfBit.toNat = 24000))
  ∧ ∀ (s t : State) (r : ParamReg) (w : Word), exec (.regWrite r w) s = .next t → t.halfBit = s.halfBit

/-- 40_frame_builder.md R87: from the frame that a valid BUILD leaves, a reader recovers the load
address, the end address, the length, the payload and its checksum; a TapeImage frame gives its
payload back, and begins with a sync byte either way. -/
def Obligations.FrameDecodesBackToItsSource : Prop :=
  (∀ (s : State) (p : List Byte), s.ctrl ≠ .playing → BuildValid Config.fileSizeLimit s →
    HoldsPayload s p → ∃ t, exec .build s = .next t ∧ t.frameByte 256 = 0xE6
      ∧ (s.fmt = .binaryLoader →
          let len := t.field16 259 - t.field16 257 + 1
          t.field16 257 = s.loadAddr.toNat
          ∧ t.field16 259 = s.loadAddr.toNat + s.srcLen.toNat - 1
          ∧ len = s.srcLen.toNat
          ∧ (List.range len).map (fun k => t.frameByte (261 + k)) = p
          ∧ t.frameByte (261 + len) = 0x00 ∧ t.frameByte (262 + len) = 0x00
          ∧ t.frameByte (263 + len) = 0xE6
          ∧ (checksum p).toNat = t.field16 (264 + len))
      ∧ (s.fmt = .tapeImage →
          let d := if p[0]? = some 0xE6 then 0 else 1
          (List.range (t.frameLen.toNat - (256 + d))).map (fun k => t.frameByte (256 + d + k)) = p))
  ∧ tapeImageFrame [0x12] = tapeImageFrame [0xE6, 0x12]

/-- 41_sample_generator.md R103: a frame that BUILD built and START started plays for exactly 16·H·L
TICKs, the last of which enters FINISHED. At 48000 TICKs per second that is never longer than
frameLength × 8 / baudRate seconds, and exactly that long when 2 × BAUD divides 48000. -/
def Obligations.PlaybackNeverOutlastsItsNominalTime : Prop :=
  ∀ s t u : State, s.ctrl ≠ .playing → exec .build s = .next t → t.ctrl = .ready →
    exec .start t = .next u →
    let n := 16 * t.halfBit.toNat * t.frameLen.toNat
    (∀ j, j < n → ∃ v, tickTimes j u = .next v ∧ v.ctrl = .playing)
    ∧ (∃ v, tickTimes n u = .next v ∧ v.ctrl = .finished)
    ∧ n * s.baud.toNat ≤ t.frameLen.toNat * 8 * 48000
    ∧ (48000 % (2 * s.baud.toNat) = 0 → n * s.baud.toNat = t.frameLen.toNat * 8 * 48000)

/-! ### TICK and playback -/

/-- 41_sample_generator.md R91: outside PLAYING a TICK emits ZERO and changes nothing else. -/
def Obligations.TickOutsidePlayingIsSilent : Prop :=
  ∀ s : State, s.ctrl ≠ .playing → exec .tick s = .next { s with sampleOut := .zero }

/-- 41_sample_generator.md R90 (with R91 to R96): outside PLAYING a TICK emits ZERO; in PLAYING it
sends one half-bit sample of the current bit and moves the cursor by the first of the four levels that
does not roll over. That HALF_BIT is not 0 and BYTE_POS is inside the frame is part of the invariant. -/
def Obligations.TickSendsTheBitAndAdvances : Prop :=
  (∀ s : State, s.ctrl ≠ .playing → exec .tick s = .next { s with sampleOut := .zero })
  ∧ ∀ s : State, s.ctrl = .playing → 1 ≤ s.halfBit.toNat → s.cursor.bytePos.toNat < s.frameLen.toNat →
    let c := s.cursor
    let bit := (s.frameByte c.bytePos.toNat).getLsbD c.bitPos.toNat
    let u : State := { s with sampleOut := if bit ≠ c.phase then .pos else .neg }
    exec .tick s = .next (
      if c.hbCnt ≠ 0 then { u with cursor := { c with hbCnt := c.hbCnt - 1 } }
      else if c.phase = true then
        { u with cursor := { c with hbCnt := s.halfBit - 1, phase := false } }
      else if c.bitPos ≠ 0 then
        { u with cursor := { c with hbCnt := s.halfBit - 1, phase := true, bitPos := c.bitPos - 1 } }
      else if c.bytePos.toNat + 1 ≠ s.frameLen.toNat then
        { u with cursor := { c with hbCnt := s.halfBit - 1, phase := true, bitPos := 7,
                                    bytePos := c.bytePos + 1 } }
      else
        { u with ctrl := .finished,
                 cursor := ⟨s.frameLen, 7, true, s.halfBit - 1, true⟩ })

/-- 70_reset_and_hazards.md R141: TICK has a next state in every state, and writes nothing but STATE,
the cursor and SAMPLE_OUT. -/
def Obligations.TickNeverFailsAndWritesOnlyPlaybackState : Prop :=
  ∀ s : State, ∃ t, exec .tick s = .next t
    ∧ t = { s with ctrl := t.ctrl, cursor := t.cursor, sampleOut := t.sampleOut }

/-- 41_sample_generator.md R99: the sample schedule. After START from READY the first 16·H·L TICKs
happen in PLAYING and TICK k = j + 1 emits the bit and phase that j gives; TICK 16·H·L enters FINISHED
and every later one is silent. -/
def Obligations.PlaybackFollowsTheSampleSchedule : Prop :=
  ∀ s t : State, BlockInv s → s.ctrl = .ready → exec .start s = .next t →
    let H := s.halfBit.toNat
    let L := s.frameLen.toNat
    (∀ j, j < 16 * H * L → ∃ u w, tickTimes j t = .next u ∧ u.ctrl = .playing
      ∧ tickTimes (j + 1) t = .next w
      ∧ w.sampleOut =
        if (s.frameByte (j / (16 * H))).getLsbD (7 - j / (2 * H) % 8) ≠ decide (j / H % 2 = 0)
        then .pos else .neg)
    ∧ (∃ u, tickTimes (16 * H * L) t = .next u ∧ u.ctrl = .finished)
    ∧ ∀ k, 16 * H * L < k → symbolOfTick k t = some .zero

/-- 41_sample_generator.md R100: PHASE toggles exactly 16·L times between START and FINISHED. -/
def Obligations.PhaseTogglesSixteenTimesPerByte : Prop :=
  ∀ s t : State, BlockInv s → s.ctrl = .ready → exec .start s = .next t →
    phaseToggles (16 * s.halfBit.toNat * s.frameLen.toNat) t = 16 * s.frameLen.toNat

/-- 41_sample_generator.md R101: the emitted symbol changes at the midpoint of every bit period, and
at the boundary of two bits exactly when they are equal. -/
def Obligations.LineCodeIsSelfClocking : Prop :=
  ∀ s t : State, BlockInv s → s.ctrl = .ready → exec .start s = .next t →
    let H := s.halfBit.toNat
    (∀ m, m < 8 * s.frameLen.toNat →
      symbolOfTick (2 * H * m + H) t ≠ symbolOfTick (2 * H * m + H + 1) t)
    ∧ ∀ m, m + 1 < 8 * s.frameLen.toNat →
      (symbolOfTick (2 * H * (m + 1)) t ≠ symbolOfTick (2 * H * (m + 1) + 1) t ↔
        s.frameBit m = s.frameBit (m + 1))

/-- 41_sample_generator.md R102: in FINISHED every TICK emits ZERO and leaves all other state
unchanged, however many follow, and only BUILD, STOP or reset leaves FINISHED. -/
def Obligations.FinishedIsSilentUntilBuildStopOrReset : Prop :=
  (∀ (s : State) (k : Nat), s.ctrl = .finished →
    tickTimes (k + 1) s = .next { s with sampleOut := .zero })
  ∧ ∀ (s t : State) (x : Input) (rest : List Input), s.ctrl = .finished → s.inputs = x :: rest →
    step s = .next t → t.ctrl ≠ .finished →
    decode x = .instr .build ∨ decode x = .instr .stop ∨ decode x = .reset

/-- 70_reset_and_hazards.md R136: what the parameter registers and SRC hold has no effect on any
number of TICKs: two states that differ only there stay so, and send the same samples. -/
def Obligations.LateParameterWritesNeverReachPlayback : Prop :=
  ∀ (s t : State) (f : Format) (b a l : Word) (m : Memory) (k : Nat), tickTimes k s = .next t →
    tickTimes k { s with fmt := f, baud := b, loadAddr := a, srcLen := l, src := m } =
      .next { t with fmt := f, baud := b, loadAddr := a, srcLen := l, src := m }

/-! ### Host bus -/

/-- 42_control_and_host_bus.md R107: a 32-bit write at 0x0C, 0x10, 0x14 or 0x18 stores the word, MODE
its bit 0, in every state, and nothing else changes; a write at any other register-space address but
CTRL's, and an 8-bit write at any of them, is a BUS_ERROR. -/
def Obligations.RegisterWritesStoreTheWord : Prop :=
  (∀ w : Word, decode (.bus ⟨.write, .w32, 0x0000C, w⟩) = .instr (.regWrite .mode w)
    ∧ decode (.bus ⟨.write, .w32, 0x00010, w⟩) = .instr (.regWrite .baud w)
    ∧ decode (.bus ⟨.write, .w32, 0x00014, w⟩) = .instr (.regWrite .loadAddr w)
    ∧ decode (.bus ⟨.write, .w32, 0x00018, w⟩) = .instr (.regWrite .srcLen w))
  ∧ (∀ (a : HostAddr) (w : Word), a.toNat < 0x40 → a ≠ 0x00000 → a ≠ 0x0000C → a ≠ 0x00010 →
      a ≠ 0x00014 → a ≠ 0x00018 → decode (.bus ⟨.write, .w32, a, w⟩) = .busError)
  ∧ (∀ (a : HostAddr) (w : Word), a.toNat < 0x40 → decode (.bus ⟨.write, .w8, a, w⟩) = .busError)
  ∧ ∀ (s : State) (w : Word),
    (∃ v n, exec (.regWrite .mode w) s = .next
      { s with fmt := if w.getLsbD 0 then .binaryLoader else .tapeImage,
               response := some ⟨.ok, v⟩, freeCount := n })
    ∧ (∃ v n, exec (.regWrite .baud w) s = .next
      { s with baud := w, response := some ⟨.ok, v⟩, freeCount := n })
    ∧ (∃ v n, exec (.regWrite .loadAddr w) s = .next
      { s with loadAddr := w, response := some ⟨.ok, v⟩, freeCount := n })
    ∧ ∃ v n, exec (.regWrite .srcLen w) s = .next
      { s with srcLen := w, response := some ⟨.ok, v⟩, freeCount := n }

/-- 42_control_and_host_bus.md R108 and 10_state.md R19 to R31: every readable register reads as its
fields at their places with every other bit 0, and the read changes nothing; a read of CTRL, of 0x38
or 0x3C, a misaligned one and an 8-bit one are BUS_ERROR. -/
def Obligations.RegisterReadsReturnTheFields : Prop :=
  (∀ (width : AccessWidth) (a : HostAddr) (w : Word), a.toNat < 0x40 →
    width = .w8 ∨ a = 0x00000 ∨ a = 0x00038 ∨ a = 0x0003C ∨ a.toNat % 4 ≠ 0 →
    decode (.bus ⟨.read, width, a, w⟩) = .busError)
  ∧ (∀ w : Word, [0x00004, 0x00008, 0x0000C, 0x00010, 0x00014, 0x00018, 0x0001C, 0x00020, 0x00024,
        0x00028, 0x0002C, 0x00030, 0x00034].map (fun a => decode (.bus ⟨.read, .w32, a, w⟩)) =
      [ReadReg.status, .errCode, .mode, .baud, .loadAddr, .srcLen, .frameLen, .halfBit, .cursorPos,
        .cursorBit, .hbCnt, .sampleOut, .limit].map (fun r => .instr (.regRead r)))
  ∧ ∀ (s : State) (r : ReadReg), ∃ v : Word,
    exec (.regRead r) s = .next { s with response := some ⟨.ok, v⟩ }
    ∧ v.toNat = match r with
      | .status =>
        (match s.ctrl with
          | .idle => 0 | .ready => 1 | .playing => 2 | .finished => 3 | .error => 4)
        + (if s.ill then 8 else 0)
      | .errCode =>
        (match s.errCode with
          | .none => 0 | .emptyInput => 1 | .fileTooLarge => 2 | .invalidLoadAddress => 3
          | .invalidBaudRate => 4 | .unreadable => 5 | .audioDeviceError => 6 | .illegalCommand => 7)
      | .mode => (match s.fmt with | .tapeImage => 0 | .binaryLoader => 1)
      | .baud => s.baud.toNat
      | .loadAddr => s.loadAddr.toNat
      | .srcLen => s.srcLen.toNat
      | .frameLen => s.frameLen.toNat
      | .halfBit => s.halfBit.toNat
      | .cursorPos => s.cursor.bytePos.toNat
      | .cursorBit =>
        s.cursor.bitPos.toNat + (if s.cursor.phase then 8 else 0) + (if s.cursor.done then 16 else 0)
      | .hbCnt => s.cursor.hbCnt.toNat
      | .sampleOut => (match s.sampleOut with | .zero => 0 | .pos => 1 | .neg => 2)
      | .limit => Config.fileSizeLimit

/-- 42_control_and_host_bus.md R109: an 8-bit write at 0x40000 + i stores the byte, in every state,
and changes no other byte and nothing else; past the window, and at width 32, it is a BUS_ERROR. -/
def Obligations.SourceWriteStoresOneByte : Prop :=
  (∀ (i : Nat) (w : Word), i < Config.fileSizeLimit →
    decode (.bus ⟨.write, .w8, BitVec.ofNat 20 (0x40000 + i), w⟩) =
      .instr (.srcWrite i (BitVec.ofNat 8 w.toNat))
    ∧ decode (.bus ⟨.write, .w32, BitVec.ofNat 20 (0x40000 + i), w⟩) = .busError)
  ∧ (∀ (i : Nat) (w : Word), Config.fileSizeLimit ≤ i → i < 0x40000 →
    decode (.bus ⟨.write, .w8, BitVec.ofNat 20 (0x40000 + i), w⟩) = .busError)
  ∧ ∀ (s : State) (i : Nat) (b : Byte), i < Config.fileSizeLimit →
    ∃ t v n, exec (.srcWrite i b) s = .next t
      ∧ t = { s with src := t.src, response := some ⟨.ok, v⟩, freeCount := n }
      ∧ ∀ k, Memory.read t.src k = if k = i then some b else Memory.read s.src k

/-- 42_control_and_host_bus.md R110: an 8-bit read at 0x40000 + i answers the byte and stops on an
unwritten one; past the window, and at width 32, it is a BUS_ERROR. -/
def Obligations.SourceReadReturnsTheByte : Prop :=
  (∀ (i : Nat) (w : Word), i < Config.fileSizeLimit →
    decode (.bus ⟨.read, .w8, BitVec.ofNat 20 (0x40000 + i), w⟩) = .instr (.srcRead i)
    ∧ decode (.bus ⟨.read, .w32, BitVec.ofNat 20 (0x40000 + i), w⟩) = .busError)
  ∧ (∀ (i : Nat) (w : Word), Config.fileSizeLimit ≤ i → i < 0x40000 →
    decode (.bus ⟨.read, .w8, BitVec.ofNat 20 (0x40000 + i), w⟩) = .busError)
  ∧ ∀ (s : State) (i : Nat), i < Config.fileSizeLimit →
    (∀ b, Memory.read s.src i = some b → exec (.srcRead i) s = .next
        { s with response := some ⟨.ok, b.setWidth 32⟩ })
    ∧ (Memory.read s.src i = none → exec (.srcRead i) s = .fault .unwrittenSource)

/-- 42_control_and_host_bus.md R111: an 8-bit read at 0x80000 + i answers the frame's byte below
FRAME_LEN and 0 from there to the end of the window; past the window, at width 32 and for any write it
is a BUS_ERROR. That every byte below FRAME_LEN is written is part of the invariant. -/
def Obligations.FrameReadReturnsOnlyTheFrame : Prop :=
  (∀ (i : Nat) (w : Word), i < Config.frameCapacity Config.fileSizeLimit →
    decode (.bus ⟨.read, .w8, BitVec.ofNat 20 (0x80000 + i), w⟩) = .instr (.frameRead i)
    ∧ decode (.bus ⟨.read, .w32, BitVec.ofNat 20 (0x80000 + i), w⟩) = .busError
    ∧ ∀ width, decode (.bus ⟨.write, width, BitVec.ofNat 20 (0x80000 + i), w⟩) = .busError)
  ∧ (∀ (i : Nat) (w : Word), Config.frameCapacity Config.fileSizeLimit ≤ i → i < 0x80000 →
    decode (.bus ⟨.read, .w8, BitVec.ofNat 20 (0x80000 + i), w⟩) = .busError)
  ∧ ∀ (s : State) (i : Nat), i < Config.frameCapacity Config.fileSizeLimit →
    (∀ b, i < s.frameLen.toNat → Memory.read s.frame i = some b →
      exec (.frameRead i) s = .next { s with response := some ⟨.ok, b.setWidth 32⟩ })
    ∧ (s.frameLen.toNat ≤ i →
      exec (.frameRead i) s = .next { s with response := some ⟨.ok, 0x00000000⟩ })

/-- The exceptions of 42_control_and_host_bus.md R109 to R111: an operation whose index is past its
window answers BUS_ERROR and changes nothing else. The decoder never gives one (log entry 11). -/
def Obligations.IndexesPastTheWindowsAnswerBusError : Prop :=
  (∀ (s : State) (i : Nat) (b : Byte), Config.fileSizeLimit ≤ i →
    exec (.srcWrite i b) s = .next { s with response := some ⟨.busError, 0x00000000⟩ }
    ∧ exec (.srcRead i) s = .next { s with response := some ⟨.busError, 0x00000000⟩ })
  ∧ ∀ (s : State) (i : Nat), Config.frameCapacity Config.fileSizeLimit ≤ i →
    exec (.frameRead i) s = .next { s with response := some ⟨.busError, 0x00000000⟩ }

/-- 30_encoding.md R64 (and the left and right equality of 41_sample_generator.md R97): the codes and
values of the symbols on the ports. -/
def Obligations.SamplePortsFollowTheSymbol : Prop :=
  ∀ s : State, s.sampleL = s.sampleR
    ∧ (s.sampleOut = .zero → s.sampleSym = 0 ∧ s.sampleL = 0x00000000)
    ∧ (s.sampleOut = .pos → s.sampleSym = 1 ∧ s.sampleL = Config.outputLevel)
    ∧ (s.sampleOut = .neg → s.sampleSym = 2
        ∧ s.sampleL.toNat = Config.outputLevel.toNat + 0x80000000)
    ∧ s.sampleSym ≠ 3

/-! ### The whole block -/

/-- 10_state.md R32 with R25, R26, R33, R34 and 60_exceptions.md R113: every transition keeps the
invariant, from every state that meets it. -/
def Obligations.StepKeepsTheInvariant : Prop :=
  ∀ s t : State, BlockInv s → step s = .next t → BlockInv t

/-- The state after reset meets the invariant. -/
def Obligations.ResetMeetsTheInvariant : Prop := BlockInv State.reset

/-- 40_frame_builder.md R88: no transition but BUILD, STOP and reset changes the frame, its length or
HALF_BIT. -/
def Obligations.FrameIsImmutableUntilBuildStopOrReset : Prop :=
  ∀ (s t : State) (x : Input) (rest : List Input), s.inputs = x :: rest → step s = .next t →
    decode x ≠ .instr .build → decode x ≠ .instr .stop → decode x ≠ .reset →
    t.frameLen = s.frameLen ∧ t.halfBit = s.halfBit
    ∧ ∀ k, k < s.frameLen.toNat → Memory.read t.frame k = Memory.read s.frame k

/-- 10_state.md R19 and 60_exceptions.md R121: ILL, once set, is cleared by STOP and reset only. -/
def Obligations.IllStaysSetUntilStopOrReset : Prop :=
  ∀ (s t : State) (x : Input) (rest : List Input), s.inputs = x :: rest → step s = .next t →
    s.ill = true → t.ill = false → decode x = .instr .stop ∨ decode x = .reset

/-- 42_control_and_host_bus.md R112: STATE after every operation is the entry of the transition table,
an operation marked ILL sets ILL and ERR_CODE, a TICK emits as the table says, and reset gives IDLE. -/
def Obligations.ControllerFollowsTheTransitionTable : Prop :=
  (∀ (i : Instr) (s t : State), exec i s = .next t →
    ControllerStep Config.fileSizeLimit s i t.ctrl)
  ∧ (∀ s t : State, exec .build s = .next t → s.ctrl = .playing →
      t.ill = true ∧ t.errCode = .illegalCommand)
  ∧ (∀ s t : State, exec .start s = .next t → s.ctrl ≠ .ready →
      t.ill = true ∧ t.errCode = .illegalCommand)
  ∧ (∀ s t : State, exec .tick s = .next t →
      (s.ctrl = .playing → t.sampleOut = .pos ∨ t.sampleOut = .neg)
      ∧ (s.ctrl ≠ .playing → t.sampleOut = .zero))
  ∧ ∀ (s t : State) (rest : List Input), s.inputs = .rst :: rest → step s = .next t → t.ctrl = .idle

/-- 10_state.md R19 to R30, R33 and R34 and 60_exceptions.md R120: each register, flag, cursor and
memory of the block changes only by the transitions that its rule names, a reset apart. ILL is set
by an illegal command only, and cleared by STOP only. -/
def Obligations.StateChangesOnlyByItsWriters : Prop :=
  ∀ (s t : State) (x : Input) (rest : List Input), s.inputs = x :: rest → step s = .next t →
    decode x ≠ .reset →
    (t.sampleOut ≠ s.sampleOut → decode x = .instr .tick)
    ∧ (t.cursor ≠ s.cursor → decode x = .instr .tick ∨ decode x = .instr .start
        ∨ decode x = .instr .build ∨ decode x = .instr .stop)
    ∧ (t.ctrl ≠ s.ctrl → decode x = .instr .tick ∨ decode x = .instr .start
        ∨ decode x = .instr .build ∨ decode x = .instr .stop)
    ∧ (s.ill = false → t.ill = true → decode x = .illegalCommand
        ∨ (decode x = .instr .build ∧ s.ctrl = .playing)
        ∨ (decode x = .instr .start ∧ s.ctrl ≠ .ready))
    ∧ (s.ill = true → t.ill = false → decode x = .instr .stop)
    ∧ (t.errCode ≠ s.errCode → decode x = .illegalCommand ∨ decode x = .instr .build
        ∨ (decode x = .instr .start ∧ s.ctrl ≠ .ready) ∨ decode x = .instr .stop)
    ∧ (t.frameLen ≠ s.frameLen →
        (decode x = .instr .build ∧ s.ctrl ≠ .playing) ∨ decode x = .instr .stop)
    ∧ (t.halfBit ≠ s.halfBit →
        (decode x = .instr .build ∧ s.ctrl ≠ .playing) ∨ decode x = .instr .stop)
    ∧ (t.fmt ≠ s.fmt → ∃ w, decode x = .instr (.regWrite .mode w))
    ∧ (t.baud ≠ s.baud → ∃ w, decode x = .instr (.regWrite .baud w))
    ∧ (t.loadAddr ≠ s.loadAddr → ∃ w, decode x = .instr (.regWrite .loadAddr w))
    ∧ (t.srcLen ≠ s.srcLen → ∃ w, decode x = .instr (.regWrite .srcLen w))
    ∧ (t.src ≠ s.src → ∃ i b, decode x = .instr (.srcWrite i b))
    ∧ (t.frame ≠ s.frame → decode x = .instr .build ∧ s.ctrl ≠ .playing)

/-- 00_scope.md R8 with the binary32 reading of log entry 3 (PRESUMED: the order of binary32 bit
patterns and the bits of 1.0): the two data levels have a magnitude above 0.0 and at most 1.0, and
NEG alone has the sign bit set. -/
def Obligations.DataLevelsLieInTheStatedRange : Prop :=
  ∀ s : State, s.sampleOut = .pos ∨ s.sampleOut = .neg →
    1 ≤ s.sampleL.toNat % 0x80000000 ∧ s.sampleL.toNat % 0x80000000 ≤ 0x3F800000
    ∧ (s.sampleL.getLsbD 31 = true ↔ s.sampleOut = .neg)
end

