-- ==== Sys2Proof/Laws/Decode.lean ====
section
/-!
SUPPORT. What the parts of the decoder answer, and the ranges of the block's parameters.
-/
namespace Sys2Proof

theorem Config.fileSizeLimit_pos : 1 ≤ Config.fileSizeLimit := Nat.le_add_left 1 _

theorem Config.fileSizeLimit_le : Config.fileSizeLimit ≤ 65536 :=
  Nat.succ_le_of_lt Config.fileSizeLimitPred.isLt

theorem Config.frameCapacity_eq (limit : Nat) : Config.frameCapacity limit = limit + 266 := rfl

/-- The FRAME window ends at FRAME_CAPACITY. -/
theorem inFrameWindow_iff {limit : Nat} (h : 1 ≤ limit) (i : Nat) :
    inFrameWindow limit i = true ↔ i < Config.frameCapacity limit := by
  simp only [inFrameWindow, Config.frameCapacity, decide_eq_true_eq]
  omega

/-- The index of FRAME_READ is well-formed exactly below FRAME_CAPACITY. -/
theorem frameRead_wellFormed_iff (i : Nat) :
    (Instr.frameRead i).WellFormed ↔ i < Config.frameCapacity Config.fileSizeLimit :=
  inFrameWindow_iff Config.fileSizeLimit_pos i

/-- The index of SRC_READ is well-formed exactly below FILE_SIZE_LIMIT. -/
theorem srcRead_wellFormed_iff (i : Nat) :
    (Instr.srcRead i).WellFormed ↔ i < Config.fileSizeLimit := decide_eq_true_iff

/-- The index of SRC_WRITE is well-formed exactly below FILE_SIZE_LIMIT. -/
theorem srcWrite_wellFormed_iff (i : Nat) (v : Byte) :
    (Instr.srcWrite i v).WellFormed ↔ i < Config.fileSizeLimit := decide_eq_true_iff

theorem Config.outputLevel_toNat : Config.outputLevel.toNat = Config.outputLevelPred.val + 1 := by
  have h := Config.outputLevelPred.isLt
  simp only [Config.outputLevel, BitVec.toNat_ofNat]
  omega

/-- OUTPUT_LEVEL lies above +0.0 and at most at 1.0, as binary32 bits. -/
theorem Config.outputLevel_range :
    1 ≤ Config.outputLevel.toNat ∧ Config.outputLevel.toNat ≤ 0x3F800000 := by
  have h := Config.outputLevelPred.isLt
  rw [Config.outputLevel_toNat]
  omega

theorem readRegAt_offset (r : ReadReg) : readRegAt r.offset = some r := by cases r <;> decide

theorem paramRegAt_offset (r : ParamReg) : paramRegAt r.offset = some r := by cases r <;> decide

/-- The readable register found at an address stands there. -/
theorem offset_of_readRegAt {a : HostAddr} {r : ReadReg} (h : readRegAt a = some r) :
    r.offset = a := by
  simpa using List.find?_some h

/-- The parameter register found at an address stands there. -/
theorem offset_of_paramRegAt {a : HostAddr} {r : ParamReg} (h : paramRegAt a = some r) :
    r.offset = a := by
  simpa using List.find?_some h

theorem readReg_offset_toNat_lt (r : ReadReg) : r.offset.toNat < registerSpaceEnd := by
  cases r <;> decide

theorem paramReg_offset_toNat_lt (r : ParamReg) : r.offset.toNat < registerSpaceEnd := by
  cases r <;> decide

theorem paramReg_offset_ne_ctrl (r : ParamReg) : r.offset ≠ ctrlOffset := by cases r <;> decide

/-- An address holds a readable register exactly when it is one of 0x04, 0x08, ..., 0x34. -/
theorem readRegAt_isSome_iff (a : HostAddr) :
    (readRegAt a).isSome = true ↔ a.toNat % 4 = 0 ∧ 0x04 ≤ a.toNat ∧ a.toNat ≤ 0x34 := by
  constructor
  · intro h
    obtain ⟨r, hr⟩ := Option.isSome_iff_exists.1 h
    rw [← offset_of_readRegAt hr]
    cases r <;> decide
  · rintro ⟨h4, hlo, hhi⟩
    have ha : a = BitVec.ofNat 20 a.toNat := by simp
    obtain ⟨q, hq⟩ : ∃ q, a.toNat = 4 * q := ⟨a.toNat / 4, by omega⟩
    rw [ha, hq]
    have hq' : 1 ≤ q ∧ q ≤ 13 := by omega
    obtain ⟨h1, h2⟩ := hq'
    clear ha hq h4 hlo hhi
    interval_cases q <;> decide

/-- An address holds a parameter register exactly when it is one of the four of R107. -/
theorem paramRegAt_isSome_iff (a : HostAddr) :
    (paramRegAt a).isSome = true ↔ a = 0x0C ∨ a = 0x10 ∨ a = 0x14 ∨ a = 0x18 := by
  constructor
  · intro h
    obtain ⟨r, hr⟩ := Option.isSome_iff_exists.1 h
    rw [← offset_of_paramRegAt hr]
    cases r <;> decide
  · rintro (h | h | h | h) <;> subst h <;> decide

/-- A CTRL word never decodes to anything but a command or IllegalCommand. -/
theorem decodeCommand_cases (w : Word) :
    (w = 0 ∧ decodeCommand w = .instr .nop) ∨ (w = 1 ∧ decodeCommand w = .instr .build)
    ∨ (w = 2 ∧ decodeCommand w = .instr .start) ∨ (w = 3 ∧ decodeCommand w = .instr .stop)
    ∨ (w ≠ 0 ∧ w ≠ 1 ∧ w ≠ 2 ∧ w ≠ 3 ∧ decodeCommand w = .illegalCommand) := by
  unfold decodeCommand
  by_cases h0 : w = 0
  · exact .inl ⟨h0, if_pos h0⟩
  by_cases h1 : w = 1
  · exact .inr (.inl ⟨h1, by rw [if_neg h0, if_pos h1]⟩)
  by_cases h2 : w = 2
  · exact .inr (.inr (.inl ⟨h2, by rw [if_neg h0, if_neg h1, if_pos h2]⟩))
  by_cases h3 : w = 3
  · exact .inr (.inr (.inr (.inl ⟨h3, by rw [if_neg h0, if_neg h1, if_neg h2, if_pos h3]⟩)))
  · exact .inr (.inr (.inr (.inr ⟨h0, h1, h2, h3, by
      rw [if_neg h0, if_neg h1, if_neg h2, if_neg h3]⟩)))

/-- A request at a register-space address goes to the register decoder. -/
theorem decodeRequestAt_register {limit : Nat} {r : Request} (h : r.addr.toNat < registerSpaceEnd) :
    decodeRequestAt limit r = decodeRegister r := by
  simp [decodeRequestAt, h]

/-- A request at byte i of the SRC window goes to the SRC decoder. -/
theorem decodeRequestAt_src {limit i : Nat} {r : Request} (hi : i < limit) (hl : limit ≤ 65536)
    (h : r.addr.toNat = srcBase + i) : decodeRequestAt limit r = decodeSrc r i := by
  have h1 : ¬ srcBase + i < registerSpaceEnd := by unfold srcBase registerSpaceEnd; omega
  have h2 : ¬ srcBase + i < srcBase := by omega
  have h3 : srcBase + i < frameBase := by unfold srcBase frameBase; omega
  simp only [decodeRequestAt, h, if_neg h1, if_neg h2, if_pos h3, Nat.add_sub_cancel_left, if_pos hi]

/-- A request at byte i of the FRAME window goes to the FRAME decoder. -/
theorem decodeRequestAt_frame {limit i : Nat} {r : Request} (hp : 1 ≤ limit)
    (hi : i < Config.frameCapacity limit)
    (h : r.addr.toNat = frameBase + i) : decodeRequestAt limit r = decodeFrame r i := by
  have h1 : ¬ frameBase + i < registerSpaceEnd := by unfold frameBase registerSpaceEnd; omega
  have h2 : ¬ frameBase + i < srcBase := by unfold frameBase srcBase; omega
  have h3 : ¬ frameBase + i < frameBase := by omega
  simp only [decodeRequestAt, h, if_neg h1, if_neg h2, if_neg h3, Nat.add_sub_cancel_left,
    (inFrameWindow_iff hp i).2 hi, if_true]

/-- Everything the request decoder can answer: a register, a byte of one of the windows, or
BUS_ERROR at an unmapped address. -/
theorem decodeRequestAt_cases {limit : Nat} (hp : 1 ≤ limit) (hl : limit ≤ 65536) (r : Request) :
    (r.addr.toNat < registerSpaceEnd ∧ decodeRequestAt limit r = decodeRegister r)
    ∨ (∃ i, i < limit ∧ r.addr.toNat = srcBase + i ∧ r.addr.toNat < frameBase
        ∧ decodeRequestAt limit r = decodeSrc r i)
    ∨ (∃ i, i < Config.frameCapacity limit ∧ r.addr.toNat = frameBase + i
        ∧ decodeRequestAt limit r = decodeFrame r i)
    ∨ (registerSpaceEnd ≤ r.addr.toNat ∧ (r.addr.toNat < srcBase ∨ srcBase + limit ≤ r.addr.toNat)
        ∧ (r.addr.toNat < frameBase ∨ frameBase + Config.frameCapacity limit ≤ r.addr.toNat)
        ∧ decodeRequestAt limit r = .busError) := by
  have hsf : srcBase + 65536 < frameBase := by decide
  by_cases h1 : r.addr.toNat < registerSpaceEnd
  · exact .inl ⟨h1, decodeRequestAt_register h1⟩
  by_cases h2 : r.addr.toNat < srcBase
  · exact .inr (.inr (.inr ⟨by omega, .inl h2, .inl (by omega), by
      simp only [decodeRequestAt, if_neg h1, if_pos h2]⟩))
  by_cases h3 : r.addr.toNat < frameBase
  · by_cases h4 : r.addr.toNat - srcBase < limit
    · exact .inr (.inl ⟨r.addr.toNat - srcBase, h4, by omega, h3, by
        simp only [decodeRequestAt, if_neg h1, if_neg h2, if_pos h3, if_pos h4]⟩)
    · exact .inr (.inr (.inr ⟨by omega, .inr (by omega), .inl h3, by
        simp only [decodeRequestAt, if_neg h1, if_neg h2, if_pos h3, if_neg h4]⟩))
  · by_cases h4 : r.addr.toNat - frameBase < Config.frameCapacity limit
    · exact .inr (.inr (.inl ⟨r.addr.toNat - frameBase, h4, by omega, by
        simp only [decodeRequestAt, if_neg h1, if_neg h2, if_neg h3, (inFrameWindow_iff hp _).2 h4,
          if_true]⟩))
    · exact .inr (.inr (.inr ⟨by omega, .inr (by omega), .inr (by omega), by
        simp only [decodeRequestAt, if_neg h1, if_neg h2, if_neg h3,
          if_neg (fun h => h4 ((inFrameWindow_iff hp _).1 h))]⟩))

/-- An 8-bit byte on the data lines is read back from them. -/
theorem extractLsb'_setWidth_byte (v : Byte) : (v.setWidth 32).extractLsb' 0 8 = v := by
  apply BitVec.eq_of_toNat_eq
  simp only [BitVec.extractLsb'_toNat, BitVec.toNat_setWidth, Nat.shiftRight_zero]
  omega

end Sys2Proof
end

