-- ==== Sys2Proof/Laws/Memory.lean ====
section
/-!
SUPPORT. The laws of a byte memory: what a read gives after a write, and that every write keeps the
canonical form.
-/
namespace Sys2Proof.Machine

/-- A read after a write: the byte written at its address, the old byte everywhere else. -/
theorem Memory.read_write (m : Memory) (a : Nat) (v : Byte) (b : Nat) :
    Memory.read (Memory.write m a v) b = if b = a then some v else Memory.read m b := by
  induction m with
  | nil => simp [Memory.write, Memory.read, eq_comm]
  | cons c m ih =>
    obtain ⟨k, w⟩ := c
    unfold Memory.write
    split
    · simp [Memory.read, eq_comm]
    · split
      · subst_vars; simp only [Memory.read]; split <;> simp_all [eq_comm]
      · rename_i _ hak
        simp only [Memory.read, ih]
        split
        · subst_vars; rw [if_neg (fun h => hak h.symm)]
        · rfl

/-- A read after a block write: the block's byte inside the block, the old byte outside it. -/
theorem Memory.read_writeFrom (m : Memory) (base : Nat) (bs : List Byte) (a : Nat) :
    Memory.read (Memory.writeFrom m base bs) a =
      if base ≤ a ∧ a < base + bs.length then bs[a - base]? else Memory.read m a := by
  induction bs generalizing base with
  | nil => rw [if_neg (by simp), Memory.writeFrom]
  | cons b bs ih =>
    rw [Memory.writeFrom, Memory.read_write, ih]
    by_cases h : a = base
    · subst h; simp
    · rw [if_neg h]
      by_cases h1 : base + 1 ≤ a ∧ a < base + 1 + bs.length
      · have h2 : base ≤ a ∧ a < base + (b :: bs).length := by simp; omega
        rw [if_pos h1, if_pos h2, show a - base = (a - (base + 1)) + 1 by omega,
          List.getElem?_cons_succ]
      · have h2 : ¬ (base ≤ a ∧ a < base + (b :: bs).length) := by simp; omega
        rw [if_neg h1, if_neg h2]

theorem Memory.risingFrom_mono {lo lo' : Nat} (h : lo' ≤ lo) :
    ∀ {m : Memory}, Memory.risingFrom lo m = true → Memory.risingFrom lo' m = true
  | [], _ => rfl
  | (k, _) :: m, hm => by
    simp only [Memory.risingFrom, Bool.and_eq_true, decide_eq_true_eq] at hm ⊢
    exact ⟨h.trans hm.1, hm.2⟩

theorem Memory.risingFrom_write (m : Memory) (a : Nat) (v : Byte) (lo : Nat) (hlo : lo ≤ a)
    (h : Memory.risingFrom lo m = true) : Memory.risingFrom lo (Memory.write m a v) = true := by
  induction m generalizing lo with
  | nil => simpa [Memory.write, Memory.risingFrom] using hlo
  | cons c m ih =>
    obtain ⟨k, w⟩ := c
    simp only [Memory.risingFrom, Bool.and_eq_true, decide_eq_true_eq] at h
    unfold Memory.write
    split
    · simp only [Memory.risingFrom, Bool.and_eq_true, decide_eq_true_eq]
      exact ⟨hlo, by omega, h.2⟩
    · split
      · subst_vars; simp only [Memory.risingFrom, Bool.and_eq_true, decide_eq_true_eq]; exact h
      · simp only [Memory.risingFrom, Bool.and_eq_true, decide_eq_true_eq]
        exact ⟨h.1, ih (k + 1) (by omega) h.2⟩

/-- A write keeps the canonical form. -/
theorem Memory.wf_write {m : Memory} (h : Memory.wf m = true) (a : Nat) (v : Byte) :
    Memory.wf (Memory.write m a v) = true :=
  Memory.risingFrom_write m a v 0 (Nat.zero_le a) h

/-- A block write keeps the canonical form. -/
theorem Memory.wf_writeFrom {m : Memory} (h : Memory.wf m = true) (base : Nat) (bs : List Byte) :
    Memory.wf (Memory.writeFrom m base bs) = true := by
  induction bs generalizing base with
  | nil => exact h
  | cons b bs ih => exact Memory.wf_write (ih (base + 1)) base b

/-- The memory that lists nothing is canonical. -/
theorem Memory.wf_nil : Memory.wf [] = true := rfl

/-- A write inside a bound keeps every address below it. -/
theorem Memory.below_write {m : Memory} {bound : Nat} (h : Memory.below bound m = true) {a : Nat}
    (ha : a < bound) (v : Byte) : Memory.below bound (Memory.write m a v) = true := by
  induction m with
  | nil => simpa [Memory.write, Memory.below] using ha
  | cons c m ih =>
    obtain ⟨k, w⟩ := c
    simp only [Memory.below, List.all_cons, Bool.and_eq_true, decide_eq_true_eq] at h ih
    unfold Memory.write
    split
    · simp only [Memory.below, List.all_cons, Bool.and_eq_true, decide_eq_true_eq]
      exact ⟨ha, h⟩
    · split
      · simp only [Memory.below, List.all_cons, Bool.and_eq_true, decide_eq_true_eq]
        exact ⟨ha, h.2⟩
      · simp only [Memory.below, List.all_cons, Bool.and_eq_true, decide_eq_true_eq]
        exact ⟨h.1, ih h.2⟩

/-- A block write inside a bound keeps every address below it. -/
theorem Memory.below_writeFrom {m : Memory} {bound : Nat} (h : Memory.below bound m = true)
    {base : Nat} {bs : List Byte} (hb : base + bs.length ≤ bound) :
    Memory.below bound (Memory.writeFrom m base bs) = true := by
  induction bs generalizing base with
  | nil => exact h
  | cons b bs ih =>
    simp only [List.length_cons] at hb
    exact Memory.below_write (ih (base := base + 1) (by omega)) (by omega) b

/-- An address above a bound is not listed. -/
theorem Memory.read_of_below {m : Memory} {bound : Nat} (h : Memory.below bound m = true) {a : Nat}
    (ha : bound ≤ a) : Memory.read m a = none := by
  induction m with
  | nil => rfl
  | cons c m ih =>
    obtain ⟨k, w⟩ := c
    simp only [Memory.below, List.all_cons, Bool.and_eq_true, decide_eq_true_eq] at h ih
    rw [Memory.read, if_neg (by omega), ih h.2]

/-- A block read gives exactly the bytes at its addresses. -/
theorem Memory.readFrom_eq_some_iff (m : Memory) (base n : Nat) (p : List Byte) :
    Memory.readFrom m base n = some p ↔
      p.length = n ∧ ∀ i, i < n → Memory.read m (base + i) = p[i]? := by
  induction n generalizing base p with
  | zero =>
    simp only [Memory.readFrom, Option.some.injEq, Nat.not_lt_zero, false_implies, implies_true,
      and_true]
    exact ⟨fun h => h ▸ rfl, fun h => (List.length_eq_zero_iff.1 h).symm⟩
  | succ n ih =>
    constructor
    · intro h
      simp only [Memory.readFrom] at h
      split at h
      · rename_i b bs hb hbs
        obtain ⟨hl, hr⟩ := (ih (base + 1) bs).1 hbs
        cases h
        refine ⟨by simp [hl], fun i hi => ?_⟩
        cases i with
        | zero => simpa using hb
        | succ i =>
          rw [List.getElem?_cons_succ, ← hr i (by omega)]
          congr 1; omega
      · cases h
    · rintro ⟨hl, hr⟩
      cases p with
      | nil => simp at hl
      | cons b bs =>
        have h0 : Memory.read m base = some b := by simpa using hr 0 (by omega)
        have hbs : Memory.readFrom m (base + 1) n = some bs := by
          refine (ih (base + 1) bs).2 ⟨by simpa using hl, fun i hi => ?_⟩
          have := hr (i + 1) (by omega)
          rw [List.getElem?_cons_succ] at this
          rw [← this]; congr 1; omega
        simp [Memory.readFrom, h0, hbs]

/-- A block read has no answer exactly when one of its bytes has no value. -/
theorem Memory.readFrom_eq_none_iff (m : Memory) (base n : Nat) :
    Memory.readFrom m base n = none ↔ ∃ i, i < n ∧ Memory.read m (base + i) = none := by
  induction n generalizing base with
  | zero => simp [Memory.readFrom]
  | succ n ih =>
    have key := ih (base + 1)
    cases h : Memory.read m base with
    | none =>
      simp only [Memory.readFrom, h, true_iff]
      exact ⟨0, by omega, by simpa using h⟩
    | some b =>
      cases hn : Memory.readFrom m (base + 1) n with
      | none =>
        obtain ⟨i, hi, hr⟩ := key.1 hn
        simp only [Memory.readFrom, h, hn, true_iff]
        exact ⟨i + 1, by omega, by rw [← hr]; congr 1; omega⟩
      | some bs =>
        simp only [Memory.readFrom, h, hn, reduceCtorEq, false_iff, not_exists, not_and]
        intro i hi hr
        cases i with
        | zero => simp [h] at hr
        | succ i =>
          have : Memory.readFrom m (base + 1) n = none :=
            key.2 ⟨i, by omega, by rw [← hr]; congr 1; omega⟩
          simp [hn] at this

end Sys2Proof.Machine
end

