-- ==== Sys2Proof/Laws/State.lean ====
section
/-!
SUPPORT. Each field after each named update of the state, so that no later proof unfolds a record
update.
-/
namespace Sys2Proof.Machine

/-! ### cursorIdle -/

@[simp] theorem State.cursorIdle_fmt (s : State) :
    s.cursorIdle.fmt = s.fmt := rfl
@[simp] theorem State.cursorIdle_baud (s : State) :
    s.cursorIdle.baud = s.baud := rfl
@[simp] theorem State.cursorIdle_loadAddr (s : State) :
    s.cursorIdle.loadAddr = s.loadAddr := rfl
@[simp] theorem State.cursorIdle_srcLen (s : State) :
    s.cursorIdle.srcLen = s.srcLen := rfl
@[simp] theorem State.cursorIdle_ctrl (s : State) :
    s.cursorIdle.ctrl = s.ctrl := rfl
@[simp] theorem State.cursorIdle_ill (s : State) :
    s.cursorIdle.ill = s.ill := rfl
@[simp] theorem State.cursorIdle_errCode (s : State) :
    s.cursorIdle.errCode = s.errCode := rfl
@[simp] theorem State.cursorIdle_frameLen (s : State) :
    s.cursorIdle.frameLen = s.frameLen := rfl
@[simp] theorem State.cursorIdle_halfBit (s : State) :
    s.cursorIdle.halfBit = s.halfBit := rfl
@[simp] theorem State.cursorIdle_cursor (s : State) :
    s.cursorIdle.cursor = Cursor.idle := rfl
@[simp] theorem State.cursorIdle_sampleOut (s : State) :
    s.cursorIdle.sampleOut = s.sampleOut := rfl
@[simp] theorem State.cursorIdle_src (s : State) :
    s.cursorIdle.src = s.src := rfl
@[simp] theorem State.cursorIdle_frame (s : State) :
    s.cursorIdle.frame = s.frame := rfl
@[simp] theorem State.cursorIdle_inputs (s : State) :
    s.cursorIdle.inputs = s.inputs := rfl
@[simp] theorem State.cursorIdle_response (s : State) :
    s.cursorIdle.response = s.response := rfl
@[simp] theorem State.cursorIdle_freeCount (s : State) :
    s.cursorIdle.freeCount = s.freeCount := rfl

/-! ### emit -/

@[simp] theorem State.emit_fmt (s : State) (sym : Symbol) :
    (s.emit sym).fmt = s.fmt := rfl
@[simp] theorem State.emit_baud (s : State) (sym : Symbol) :
    (s.emit sym).baud = s.baud := rfl
@[simp] theorem State.emit_loadAddr (s : State) (sym : Symbol) :
    (s.emit sym).loadAddr = s.loadAddr := rfl
@[simp] theorem State.emit_srcLen (s : State) (sym : Symbol) :
    (s.emit sym).srcLen = s.srcLen := rfl
@[simp] theorem State.emit_ctrl (s : State) (sym : Symbol) :
    (s.emit sym).ctrl = s.ctrl := rfl
@[simp] theorem State.emit_ill (s : State) (sym : Symbol) :
    (s.emit sym).ill = s.ill := rfl
@[simp] theorem State.emit_errCode (s : State) (sym : Symbol) :
    (s.emit sym).errCode = s.errCode := rfl
@[simp] theorem State.emit_frameLen (s : State) (sym : Symbol) :
    (s.emit sym).frameLen = s.frameLen := rfl
@[simp] theorem State.emit_halfBit (s : State) (sym : Symbol) :
    (s.emit sym).halfBit = s.halfBit := rfl
@[simp] theorem State.emit_cursor (s : State) (sym : Symbol) :
    (s.emit sym).cursor = s.cursor := rfl
@[simp] theorem State.emit_sampleOut (s : State) (sym : Symbol) :
    (s.emit sym).sampleOut = sym := rfl
@[simp] theorem State.emit_src (s : State) (sym : Symbol) :
    (s.emit sym).src = s.src := rfl
@[simp] theorem State.emit_frame (s : State) (sym : Symbol) :
    (s.emit sym).frame = s.frame := rfl
@[simp] theorem State.emit_inputs (s : State) (sym : Symbol) :
    (s.emit sym).inputs = s.inputs := rfl
@[simp] theorem State.emit_response (s : State) (sym : Symbol) :
    (s.emit sym).response = s.response := rfl
@[simp] theorem State.emit_freeCount (s : State) (sym : Symbol) :
    (s.emit sym).freeCount = s.freeCount := rfl

/-! ### raiseIllegalCommand -/

@[simp] theorem State.raiseIllegalCommand_fmt (s : State) :
    s.raiseIllegalCommand.fmt = s.fmt := rfl
@[simp] theorem State.raiseIllegalCommand_baud (s : State) :
    s.raiseIllegalCommand.baud = s.baud := rfl
@[simp] theorem State.raiseIllegalCommand_loadAddr (s : State) :
    s.raiseIllegalCommand.loadAddr = s.loadAddr := rfl
@[simp] theorem State.raiseIllegalCommand_srcLen (s : State) :
    s.raiseIllegalCommand.srcLen = s.srcLen := rfl
@[simp] theorem State.raiseIllegalCommand_ctrl (s : State) :
    s.raiseIllegalCommand.ctrl = s.ctrl := rfl
@[simp] theorem State.raiseIllegalCommand_ill (s : State) :
    s.raiseIllegalCommand.ill = true := rfl
@[simp] theorem State.raiseIllegalCommand_errCode (s : State) :
    s.raiseIllegalCommand.errCode = .illegalCommand := rfl
@[simp] theorem State.raiseIllegalCommand_frameLen (s : State) :
    s.raiseIllegalCommand.frameLen = s.frameLen := rfl
@[simp] theorem State.raiseIllegalCommand_halfBit (s : State) :
    s.raiseIllegalCommand.halfBit = s.halfBit := rfl
@[simp] theorem State.raiseIllegalCommand_cursor (s : State) :
    s.raiseIllegalCommand.cursor = s.cursor := rfl
@[simp] theorem State.raiseIllegalCommand_sampleOut (s : State) :
    s.raiseIllegalCommand.sampleOut = s.sampleOut := rfl
@[simp] theorem State.raiseIllegalCommand_src (s : State) :
    s.raiseIllegalCommand.src = s.src := rfl
@[simp] theorem State.raiseIllegalCommand_frame (s : State) :
    s.raiseIllegalCommand.frame = s.frame := rfl
@[simp] theorem State.raiseIllegalCommand_inputs (s : State) :
    s.raiseIllegalCommand.inputs = s.inputs := rfl
@[simp] theorem State.raiseIllegalCommand_response (s : State) :
    s.raiseIllegalCommand.response = s.response := rfl
@[simp] theorem State.raiseIllegalCommand_freeCount (s : State) :
    s.raiseIllegalCommand.freeCount = s.freeCount := rfl

/-! ### failBuild -/

@[simp] theorem State.failBuild_fmt (s : State) (code : ErrorCode) :
    (s.failBuild code).fmt = s.fmt := rfl
@[simp] theorem State.failBuild_baud (s : State) (code : ErrorCode) :
    (s.failBuild code).baud = s.baud := rfl
@[simp] theorem State.failBuild_loadAddr (s : State) (code : ErrorCode) :
    (s.failBuild code).loadAddr = s.loadAddr := rfl
@[simp] theorem State.failBuild_srcLen (s : State) (code : ErrorCode) :
    (s.failBuild code).srcLen = s.srcLen := rfl
@[simp] theorem State.failBuild_ctrl (s : State) (code : ErrorCode) :
    (s.failBuild code).ctrl = .error := rfl
@[simp] theorem State.failBuild_ill (s : State) (code : ErrorCode) :
    (s.failBuild code).ill = s.ill := rfl
@[simp] theorem State.failBuild_errCode (s : State) (code : ErrorCode) :
    (s.failBuild code).errCode = code := rfl
@[simp] theorem State.failBuild_frameLen (s : State) (code : ErrorCode) :
    (s.failBuild code).frameLen = 0 := rfl
@[simp] theorem State.failBuild_halfBit (s : State) (code : ErrorCode) :
    (s.failBuild code).halfBit = 0 := rfl
@[simp] theorem State.failBuild_cursor (s : State) (code : ErrorCode) :
    (s.failBuild code).cursor = Cursor.idle := rfl
@[simp] theorem State.failBuild_sampleOut (s : State) (code : ErrorCode) :
    (s.failBuild code).sampleOut = s.sampleOut := rfl
@[simp] theorem State.failBuild_src (s : State) (code : ErrorCode) :
    (s.failBuild code).src = s.src := rfl
@[simp] theorem State.failBuild_frame (s : State) (code : ErrorCode) :
    (s.failBuild code).frame = s.frame := rfl
@[simp] theorem State.failBuild_inputs (s : State) (code : ErrorCode) :
    (s.failBuild code).inputs = s.inputs := rfl
@[simp] theorem State.failBuild_response (s : State) (code : ErrorCode) :
    (s.failBuild code).response = s.response := rfl
@[simp] theorem State.failBuild_freeCount (s : State) (code : ErrorCode) :
    (s.failBuild code).freeCount = s.freeCount := rfl

/-! ### release -/

@[simp] theorem State.release_fmt (s : State) :
    s.release.fmt = s.fmt := rfl
@[simp] theorem State.release_baud (s : State) :
    s.release.baud = s.baud := rfl
@[simp] theorem State.release_loadAddr (s : State) :
    s.release.loadAddr = s.loadAddr := rfl
@[simp] theorem State.release_srcLen (s : State) :
    s.release.srcLen = s.srcLen := rfl
@[simp] theorem State.release_ctrl (s : State) :
    s.release.ctrl = .idle := rfl
@[simp] theorem State.release_ill (s : State) :
    s.release.ill = false := rfl
@[simp] theorem State.release_errCode (s : State) :
    s.release.errCode = .none := rfl
@[simp] theorem State.release_frameLen (s : State) :
    s.release.frameLen = 0 := rfl
@[simp] theorem State.release_halfBit (s : State) :
    s.release.halfBit = 0 := rfl
@[simp] theorem State.release_cursor (s : State) :
    s.release.cursor = Cursor.idle := rfl
@[simp] theorem State.release_sampleOut (s : State) :
    s.release.sampleOut = s.sampleOut := rfl
@[simp] theorem State.release_src (s : State) :
    s.release.src = s.src := rfl
@[simp] theorem State.release_frame (s : State) :
    s.release.frame = s.frame := rfl
@[simp] theorem State.release_inputs (s : State) :
    s.release.inputs = s.inputs := rfl
@[simp] theorem State.release_response (s : State) :
    s.release.response = s.response := rfl
@[simp] theorem State.release_freeCount (s : State) :
    s.release.freeCount = s.freeCount := rfl

/-! ### respondRead -/

@[simp] theorem State.respondRead_fmt (s : State) (v : Word) :
    (s.respondRead v).fmt = s.fmt := rfl
@[simp] theorem State.respondRead_baud (s : State) (v : Word) :
    (s.respondRead v).baud = s.baud := rfl
@[simp] theorem State.respondRead_loadAddr (s : State) (v : Word) :
    (s.respondRead v).loadAddr = s.loadAddr := rfl
@[simp] theorem State.respondRead_srcLen (s : State) (v : Word) :
    (s.respondRead v).srcLen = s.srcLen := rfl
@[simp] theorem State.respondRead_ctrl (s : State) (v : Word) :
    (s.respondRead v).ctrl = s.ctrl := rfl
@[simp] theorem State.respondRead_ill (s : State) (v : Word) :
    (s.respondRead v).ill = s.ill := rfl
@[simp] theorem State.respondRead_errCode (s : State) (v : Word) :
    (s.respondRead v).errCode = s.errCode := rfl
@[simp] theorem State.respondRead_frameLen (s : State) (v : Word) :
    (s.respondRead v).frameLen = s.frameLen := rfl
@[simp] theorem State.respondRead_halfBit (s : State) (v : Word) :
    (s.respondRead v).halfBit = s.halfBit := rfl
@[simp] theorem State.respondRead_cursor (s : State) (v : Word) :
    (s.respondRead v).cursor = s.cursor := rfl
@[simp] theorem State.respondRead_sampleOut (s : State) (v : Word) :
    (s.respondRead v).sampleOut = s.sampleOut := rfl
@[simp] theorem State.respondRead_src (s : State) (v : Word) :
    (s.respondRead v).src = s.src := rfl
@[simp] theorem State.respondRead_frame (s : State) (v : Word) :
    (s.respondRead v).frame = s.frame := rfl
@[simp] theorem State.respondRead_inputs (s : State) (v : Word) :
    (s.respondRead v).inputs = s.inputs := rfl
@[simp] theorem State.respondRead_response (s : State) (v : Word) :
    (s.respondRead v).response = some ⟨.ok, v⟩ := rfl
@[simp] theorem State.respondRead_freeCount (s : State) (v : Word) :
    (s.respondRead v).freeCount = s.freeCount := rfl

/-! ### respondWrite -/

@[simp] theorem State.respondWrite_fmt (s : State) :
    s.respondWrite.fmt = s.fmt := rfl
@[simp] theorem State.respondWrite_baud (s : State) :
    s.respondWrite.baud = s.baud := rfl
@[simp] theorem State.respondWrite_loadAddr (s : State) :
    s.respondWrite.loadAddr = s.loadAddr := rfl
@[simp] theorem State.respondWrite_srcLen (s : State) :
    s.respondWrite.srcLen = s.srcLen := rfl
@[simp] theorem State.respondWrite_ctrl (s : State) :
    s.respondWrite.ctrl = s.ctrl := rfl
@[simp] theorem State.respondWrite_ill (s : State) :
    s.respondWrite.ill = s.ill := rfl
@[simp] theorem State.respondWrite_errCode (s : State) :
    s.respondWrite.errCode = s.errCode := rfl
@[simp] theorem State.respondWrite_frameLen (s : State) :
    s.respondWrite.frameLen = s.frameLen := rfl
@[simp] theorem State.respondWrite_halfBit (s : State) :
    s.respondWrite.halfBit = s.halfBit := rfl
@[simp] theorem State.respondWrite_cursor (s : State) :
    s.respondWrite.cursor = s.cursor := rfl
@[simp] theorem State.respondWrite_sampleOut (s : State) :
    s.respondWrite.sampleOut = s.sampleOut := rfl
@[simp] theorem State.respondWrite_src (s : State) :
    s.respondWrite.src = s.src := rfl
@[simp] theorem State.respondWrite_frame (s : State) :
    s.respondWrite.frame = s.frame := rfl
@[simp] theorem State.respondWrite_inputs (s : State) :
    s.respondWrite.inputs = s.inputs := rfl
@[simp] theorem State.respondWrite_response (s : State) :
    s.respondWrite.response = some ⟨.ok, Config.writeRdata s.freeCount⟩ := rfl
@[simp] theorem State.respondWrite_freeCount (s : State) :
    s.respondWrite.freeCount = s.freeCount + 1 := rfl

/-! ### respondBusError -/

@[simp] theorem State.respondBusError_fmt (s : State) :
    s.respondBusError.fmt = s.fmt := rfl
@[simp] theorem State.respondBusError_baud (s : State) :
    s.respondBusError.baud = s.baud := rfl
@[simp] theorem State.respondBusError_loadAddr (s : State) :
    s.respondBusError.loadAddr = s.loadAddr := rfl
@[simp] theorem State.respondBusError_srcLen (s : State) :
    s.respondBusError.srcLen = s.srcLen := rfl
@[simp] theorem State.respondBusError_ctrl (s : State) :
    s.respondBusError.ctrl = s.ctrl := rfl
@[simp] theorem State.respondBusError_ill (s : State) :
    s.respondBusError.ill = s.ill := rfl
@[simp] theorem State.respondBusError_errCode (s : State) :
    s.respondBusError.errCode = s.errCode := rfl
@[simp] theorem State.respondBusError_frameLen (s : State) :
    s.respondBusError.frameLen = s.frameLen := rfl
@[simp] theorem State.respondBusError_halfBit (s : State) :
    s.respondBusError.halfBit = s.halfBit := rfl
@[simp] theorem State.respondBusError_cursor (s : State) :
    s.respondBusError.cursor = s.cursor := rfl
@[simp] theorem State.respondBusError_sampleOut (s : State) :
    s.respondBusError.sampleOut = s.sampleOut := rfl
@[simp] theorem State.respondBusError_src (s : State) :
    s.respondBusError.src = s.src := rfl
@[simp] theorem State.respondBusError_frame (s : State) :
    s.respondBusError.frame = s.frame := rfl
@[simp] theorem State.respondBusError_inputs (s : State) :
    s.respondBusError.inputs = s.inputs := rfl
@[simp] theorem State.respondBusError_response (s : State) :
    s.respondBusError.response = some ⟨.busError, 0⟩ := rfl
@[simp] theorem State.respondBusError_freeCount (s : State) :
    s.respondBusError.freeCount = s.freeCount := rfl

/-! ### performReset -/

@[simp] theorem State.performReset_fmt (s : State) :
    s.performReset.fmt = State.reset.fmt := rfl
@[simp] theorem State.performReset_baud (s : State) :
    s.performReset.baud = State.reset.baud := rfl
@[simp] theorem State.performReset_loadAddr (s : State) :
    s.performReset.loadAddr = State.reset.loadAddr := rfl
@[simp] theorem State.performReset_srcLen (s : State) :
    s.performReset.srcLen = State.reset.srcLen := rfl
@[simp] theorem State.performReset_ctrl (s : State) :
    s.performReset.ctrl = State.reset.ctrl := rfl
@[simp] theorem State.performReset_ill (s : State) :
    s.performReset.ill = State.reset.ill := rfl
@[simp] theorem State.performReset_errCode (s : State) :
    s.performReset.errCode = State.reset.errCode := rfl
@[simp] theorem State.performReset_frameLen (s : State) :
    s.performReset.frameLen = State.reset.frameLen := rfl
@[simp] theorem State.performReset_halfBit (s : State) :
    s.performReset.halfBit = State.reset.halfBit := rfl
@[simp] theorem State.performReset_cursor (s : State) :
    s.performReset.cursor = State.reset.cursor := rfl
@[simp] theorem State.performReset_sampleOut (s : State) :
    s.performReset.sampleOut = State.reset.sampleOut := rfl
@[simp] theorem State.performReset_src (s : State) :
    s.performReset.src = State.reset.src := rfl
@[simp] theorem State.performReset_frame (s : State) :
    s.performReset.frame = State.reset.frame := rfl
@[simp] theorem State.performReset_inputs (s : State) :
    s.performReset.inputs = s.inputs := rfl
@[simp] theorem State.performReset_response (s : State) :
    s.performReset.response = State.reset.response := rfl
@[simp] theorem State.performReset_freeCount (s : State) :
    s.performReset.freeCount = s.freeCount := rfl

/-! ### installFrame -/

@[simp] theorem State.installFrame_fmt (s : State) (f : List Byte) :
    (s.installFrame f).fmt = s.fmt := rfl
@[simp] theorem State.installFrame_baud (s : State) (f : List Byte) :
    (s.installFrame f).baud = s.baud := rfl
@[simp] theorem State.installFrame_loadAddr (s : State) (f : List Byte) :
    (s.installFrame f).loadAddr = s.loadAddr := rfl
@[simp] theorem State.installFrame_srcLen (s : State) (f : List Byte) :
    (s.installFrame f).srcLen = s.srcLen := rfl
@[simp] theorem State.installFrame_ctrl (s : State) (f : List Byte) :
    (s.installFrame f).ctrl = .ready := rfl
@[simp] theorem State.installFrame_ill (s : State) (f : List Byte) :
    (s.installFrame f).ill = s.ill := rfl
@[simp] theorem State.installFrame_errCode (s : State) (f : List Byte) :
    (s.installFrame f).errCode = .none := rfl
@[simp] theorem State.installFrame_frameLen (s : State) (f : List Byte) :
    (s.installFrame f).frameLen = BitVec.ofNat 17 f.length := rfl
@[simp] theorem State.installFrame_halfBit (s : State) (f : List Byte) :
    (s.installFrame f).halfBit = halfBitOf s.baud := rfl
@[simp] theorem State.installFrame_cursor (s : State) (f : List Byte) :
    (s.installFrame f).cursor = Cursor.idle := rfl
@[simp] theorem State.installFrame_sampleOut (s : State) (f : List Byte) :
    (s.installFrame f).sampleOut = s.sampleOut := rfl
@[simp] theorem State.installFrame_src (s : State) (f : List Byte) :
    (s.installFrame f).src = s.src := rfl
@[simp] theorem State.installFrame_frame (s : State) (f : List Byte) :
    (s.installFrame f).frame = Memory.writeFrom s.frame 0 f := rfl
@[simp] theorem State.installFrame_inputs (s : State) (f : List Byte) :
    (s.installFrame f).inputs = s.inputs := rfl
@[simp] theorem State.installFrame_response (s : State) (f : List Byte) :
    (s.installFrame f).response = s.response := rfl
@[simp] theorem State.installFrame_freeCount (s : State) (f : List Byte) :
    (s.installFrame f).freeCount = s.freeCount := rfl

/-! ### writeRegister -/

theorem writeRegister_fmt (s : State) (w : Word) (r : ParamReg) :
    (writeRegister s w r).fmt = if r = .mode then Format.ofBit (w.getLsbD 0) else s.fmt := by cases r <;> rfl
theorem writeRegister_baud (s : State) (w : Word) (r : ParamReg) :
    (writeRegister s w r).baud = if r = .baud then w else s.baud := by cases r <;> rfl
theorem writeRegister_loadAddr (s : State) (w : Word) (r : ParamReg) :
    (writeRegister s w r).loadAddr = if r = .loadAddr then w else s.loadAddr := by cases r <;> rfl
theorem writeRegister_srcLen (s : State) (w : Word) (r : ParamReg) :
    (writeRegister s w r).srcLen = if r = .srcLen then w else s.srcLen := by cases r <;> rfl
@[simp] theorem writeRegister_ctrl (s : State) (w : Word) (r : ParamReg) :
    (writeRegister s w r).ctrl = s.ctrl := by cases r <;> rfl
@[simp] theorem writeRegister_ill (s : State) (w : Word) (r : ParamReg) :
    (writeRegister s w r).ill = s.ill := by cases r <;> rfl
@[simp] theorem writeRegister_errCode (s : State) (w : Word) (r : ParamReg) :
    (writeRegister s w r).errCode = s.errCode := by cases r <;> rfl
@[simp] theorem writeRegister_frameLen (s : State) (w : Word) (r : ParamReg) :
    (writeRegister s w r).frameLen = s.frameLen := by cases r <;> rfl
@[simp] theorem writeRegister_halfBit (s : State) (w : Word) (r : ParamReg) :
    (writeRegister s w r).halfBit = s.halfBit := by cases r <;> rfl
@[simp] theorem writeRegister_cursor (s : State) (w : Word) (r : ParamReg) :
    (writeRegister s w r).cursor = s.cursor := by cases r <;> rfl
@[simp] theorem writeRegister_sampleOut (s : State) (w : Word) (r : ParamReg) :
    (writeRegister s w r).sampleOut = s.sampleOut := by cases r <;> rfl
@[simp] theorem writeRegister_src (s : State) (w : Word) (r : ParamReg) :
    (writeRegister s w r).src = s.src := by cases r <;> rfl
@[simp] theorem writeRegister_frame (s : State) (w : Word) (r : ParamReg) :
    (writeRegister s w r).frame = s.frame := by cases r <;> rfl
@[simp] theorem writeRegister_inputs (s : State) (w : Word) (r : ParamReg) :
    (writeRegister s w r).inputs = s.inputs := by cases r <;> rfl
@[simp] theorem writeRegister_response (s : State) (w : Word) (r : ParamReg) :
    (writeRegister s w r).response = s.response := by cases r <;> rfl
@[simp] theorem writeRegister_freeCount (s : State) (w : Word) (r : ParamReg) :
    (writeRegister s w r).freeCount = s.freeCount := by cases r <;> rfl

end Sys2Proof.Machine
end

