-- ==== Sys2Proof/Laws/Ops.lean ====
section
/-!
SUPPORT. What each shared operation and each meaning can do, said once: the lemmas a proof about a
step cites instead of unfolding it.
-/
namespace Sys2Proof.Machine

/-! ### Frame Builder -/

/-- BUILD's checks find no error exactly when the four conditions of the spec hold. -/
theorem buildErrorAt_eq_none_iff (limit : Nat) (s : State) :
    buildErrorAt limit s = none ↔ BuildValid limit s := by
  simp only [buildErrorAt, BuildValid, loadAddressInvalid, Config.baudMin, Config.baudMax,
    Bool.or_eq_true, decide_eq_true_eq]
  by_cases h1 : limit < s.srcLen.toNat
  · simp only [if_pos h1, reduceCtorEq, false_iff]; omega
  by_cases h2 : s.srcLen.toNat = 0
  · simp only [if_neg h1, if_pos h2, reduceCtorEq, false_iff]; omega
  simp only [if_neg h1, if_neg h2]
  cases hf : s.fmt with
  | tapeImage => simp; omega
  | binaryLoader =>
    by_cases h3 : (limit < s.loadAddr.toNat ∨ 0xFFFF < s.loadAddr.toNat)
        ∨ 0xFFFF < s.loadAddr.toNat + s.srcLen.toNat - 1
    · simp [h3]; omega
    · simp [h3]; omega

/-- A failing BUILD reports one of the four codes of its checks. -/
theorem buildErrorAt_codes {limit : Nat} {s : State} {code : ErrorCode}
    (h : buildErrorAt limit s = some code) :
    code = .fileTooLarge ∨ code = .emptyInput ∨ code = .invalidLoadAddress ∨ code = .invalidBaudRate := by
  simp only [buildErrorAt] at h
  repeat' split at h
  all_goals simp_all

/-- BUILD reads a payload exactly when SRC[0..SRC_LEN-1] is written and holds it. -/
theorem State.payload_eq_some_iff (s : State) (p : List Byte) :
    s.payload = some p ↔ HoldsPayload s p := by
  simp only [State.payload, Memory.readFrom_eq_some_iff, HoldsPayload, Nat.zero_add]

/-- BUILD reads no payload exactly when one of its bytes is unwritten. -/
theorem State.payload_eq_none_iff (s : State) :
    s.payload = none ↔ ∃ i, i < s.srcLen.toNat ∧ Memory.read s.src i = none := by
  simp only [State.payload, Memory.readFrom_eq_none_iff, Nat.zero_add]

/-- Everything BUILD can do. -/
theorem buildAt_cases (limit : Nat) (s : State) :
    (s.ctrl = .playing ∧ buildAt limit s = .next s.raiseIllegalCommand.respondWrite)
    ∨ (s.ctrl ≠ .playing ∧ ¬ BuildValid limit s ∧ ∃ code, buildErrorAt limit s = some code
        ∧ buildAt limit s = .next (s.failBuild code).respondWrite)
    ∨ (s.ctrl ≠ .playing ∧ BuildValid limit s ∧ s.payload = none
        ∧ buildAt limit s = .fault .unwrittenSource)
    ∨ (s.ctrl ≠ .playing ∧ BuildValid limit s ∧ ∃ p, HoldsPayload s p
        ∧ buildAt limit s = .next (s.installFrame (s.frameOf p)).respondWrite) := by
  unfold buildAt
  by_cases hp : s.ctrl = .playing
  · exact .inl ⟨hp, if_pos hp⟩
  rw [if_neg hp]
  cases he : buildErrorAt limit s with
  | some code =>
    refine .inr (.inl ⟨hp, fun hv => ?_, code, rfl, rfl⟩)
    rw [(buildErrorAt_eq_none_iff limit s).2 hv] at he
    cases he
  | none =>
    have hv := (buildErrorAt_eq_none_iff limit s).1 he
    cases hs : s.payload with
    | none => exact .inr (.inr (.inl ⟨hp, hv, rfl, rfl⟩))
    | some p => exact .inr (.inr (.inr ⟨hp, hv, p, (s.payload_eq_some_iff p).1 hs, rfl⟩))

/-- A valid BUILD of a written source outside PLAYING installs the frame. -/
theorem exec_build_valid {s : State} {p : List Byte} (hp : s.ctrl ≠ .playing)
    (hv : BuildValid Config.fileSizeLimit s) (hh : HoldsPayload s p) :
    exec .build s = .next (s.installFrame (s.frameOf p)).respondWrite := by
  unfold exec execBuild buildAt
  rw [if_neg hp]
  simp only [(buildErrorAt_eq_none_iff _ _).2 hv, (s.payload_eq_some_iff p).2 hh]

/-- The padding of a frame has PAD_LEN bytes, all of them 0 (40_frame_builder.md R74). -/
theorem padding_get (k : Nat) :
    (List.replicate Config.padLen (0 : Byte))[k]? = if k < 256 then some 0 else none := by
  rw [List.getElem?_replicate]; rfl

theorem bigEndian16_length (v : BitVec 16) : (bigEndian16 v).length = 2 := rfl

/-- The TapeImage frame length of 40_frame_builder.md R83. -/
theorem tapeImageFrame_length (p : List Byte) :
    (tapeImageFrame p).length = 256 + (if p.head? = some 0xE6 then 0 else 1) + p.length := by
  rw [tapeImageFrame, List.length_append, List.length_append, List.length_replicate, apply_ite List.length]
  rfl

/-- The BinaryLoader frame length of 40_frame_builder.md R83. -/
theorem binaryLoaderFrame_length (a : Nat) (p : List Byte) :
    (binaryLoaderFrame a p).length = 266 + p.length := by
  simp only [binaryLoaderFrame, List.length_append, List.length_replicate, Config.padLen,
    bigEndian16_length, List.length_cons, List.length_nil]
  omega

/-- A frame is longer than its padding and fits the frame memory (40_frame_builder.md R83). -/
theorem State.frameOf_length (s : State) {limit : Nat} {p : List Byte} (h1 : 1 ≤ p.length)
    (hl : p.length ≤ limit) :
    257 ≤ (s.frameOf p).length ∧ (s.frameOf p).length ≤ limit + 266 := by
  unfold State.frameOf
  split
  · rw [tapeImageFrame_length]; split <;> omega
  · rw [binaryLoaderFrame_length]; omega

/-- The half-bit duration of a legal baud rate, as a number (40_frame_builder.md R84). -/
theorem halfBitOf_toNat {baud : Word} (h1 : 1 ≤ baud.toNat) :
    (halfBitOf baud).toNat = 48000 / (2 * baud.toNat) := by
  have h : 48000 / (2 * baud.toNat) ≤ 48000 / 2 := Nat.div_le_div_left (by omega) (by omega)
  simp only [halfBitOf, BitVec.toNat_ofNat, Config.sampleRate]
  exact Nat.mod_eq_of_lt (by omega)

/-! ### Sample Generator -/

/-- Everything a complete bit can do (41_sample_generator.md R95, R96). -/
theorem State.completeBit_cases (s : State) :
    (s.cursor.bitPos ≠ 0
      ∧ s.completeBit = { s with cursor := { s.cursor with bitPos := s.cursor.bitPos - 1 } })
    ∨ (s.cursor.bitPos = 0 ∧ s.cursor.bytePos + 1 ≠ s.frameLen
      ∧ s.completeBit =
        { s with cursor := { s.cursor with bitPos := 7, bytePos := s.cursor.bytePos + 1 } })
    ∨ (s.cursor.bitPos = 0 ∧ s.cursor.bytePos + 1 = s.frameLen
      ∧ s.completeBit = { s with ctrl := .finished, cursor :=
          { s.cursor with bitPos := 7, bytePos := s.cursor.bytePos + 1, done := true } }) := by
  by_cases hb : s.cursor.bitPos = 0
  · by_cases hl : s.cursor.bytePos + 1 = s.frameLen
    · exact .inr (.inr ⟨hb, hl, by simp only [State.completeBit, if_pos hb, if_pos hl]⟩)
    · exact .inr (.inl ⟨hb, hl, by simp only [State.completeBit, if_pos hb, if_neg hl]⟩)
  · exact .inl ⟨hb, by simp only [State.completeBit, if_neg hb]⟩

/-- Everything the cursor's advance can do (41_sample_generator.md R94 to R96). -/
theorem State.advanceCursor_cases (s : State) :
    (s.cursor.hbCnt ≠ 0
      ∧ s.advanceCursor = { s with cursor := { s.cursor with hbCnt := s.cursor.hbCnt - 1 } })
    ∨ (s.cursor.hbCnt = 0 ∧ s.cursor.phase = true
      ∧ s.advanceCursor =
        { s with cursor := { s.cursor with hbCnt := s.halfBit - 1, phase := false } })
    ∨ (s.cursor.hbCnt = 0 ∧ s.cursor.phase = false
      ∧ s.advanceCursor = State.completeBit
        { s with cursor := { s.cursor with hbCnt := s.halfBit - 1, phase := true } }) := by
  by_cases hh : s.cursor.hbCnt = 0
  · cases hp : s.cursor.phase with
    | true => exact .inr (.inl ⟨hh, rfl, by simp [State.advanceCursor, hh, hp]⟩)
    | false => exact .inr (.inr ⟨hh, rfl, by simp [State.advanceCursor, hh, hp]⟩)
  · exact .inl ⟨hh, by simp only [State.advanceCursor, if_neg hh]⟩

/-- A TICK always has a next state, and writes nothing but STATE, the cursor and SAMPLE_OUT
(41_sample_generator.md R90). -/
theorem execTick_frame (s : State) : ∃ t, execTick s = .next t
    ∧ t = { s with ctrl := t.ctrl, cursor := t.cursor, sampleOut := t.sampleOut } := by
  unfold execTick
  split
  · refine ⟨_, rfl, ?_⟩
    rcases State.advanceCursor_cases (s.emit (polarity s.currentBit s.cursor.phase)) with
      ⟨-, h⟩ | ⟨-, -, h⟩ | ⟨-, -, h⟩
    · rw [h]; rfl
    · rw [h]; rfl
    · rw [h]
      rcases State.completeBit_cases { s.emit (polarity s.currentBit s.cursor.phase) with
          cursor := { (s.emit (polarity s.currentBit s.cursor.phase)).cursor with
            hbCnt := (s.emit (polarity s.currentBit s.cursor.phase)).halfBit - 1, phase := true } } with
        ⟨-, h'⟩ | ⟨-, -, h'⟩ | ⟨-, -, h'⟩ <;> rw [h'] <;> rfl
  · exact ⟨_, rfl, rfl⟩

/-! ### Host bus -/

/-- Everything SRC_WRITE can do. -/
theorem srcWriteAt_cases (limit i : Nat) (v : Byte) (s : State) :
    (i < limit ∧ srcWriteAt limit i v s =
      .next (State.respondWrite { s with src := Memory.write s.src i v }))
    ∨ (limit ≤ i ∧ srcWriteAt limit i v s = .next s.respondBusError) := by
  by_cases h : i < limit
  · exact .inl ⟨h, if_pos h⟩
  · exact .inr ⟨by omega, if_neg h⟩

/-- Everything SRC_READ can do. -/
theorem srcReadAt_cases (limit i : Nat) (s : State) :
    (i < limit ∧ ∃ b, Memory.read s.src i = some b
      ∧ srcReadAt limit i s = .next (s.respondRead (b.setWidth 32)))
    ∨ (i < limit ∧ Memory.read s.src i = none ∧ srcReadAt limit i s = .fault .unwrittenSource)
    ∨ (limit ≤ i ∧ srcReadAt limit i s = .next s.respondBusError) := by
  unfold srcReadAt
  by_cases h : i < limit
  · rw [if_pos h]
    cases hr : Memory.read s.src i with
    | some b => exact .inl ⟨h, b, rfl, rfl⟩
    | none => exact .inr (.inl ⟨h, rfl, rfl⟩)
  · exact .inr (.inr ⟨by omega, if_neg h⟩)

/-- Everything FRAME_READ can do. -/
theorem frameReadAt_cases {limit : Nat} (hp : 1 ≤ limit) (i : Nat) (s : State) :
    (i < Config.frameCapacity limit ∧ frameReadAt limit i s = .next (s.respondRead
        (if i < s.frameLen.toNat then (s.frameByte i).setWidth 32 else 0)))
    ∨ (Config.frameCapacity limit ≤ i ∧ frameReadAt limit i s = .next s.respondBusError) := by
  by_cases h : i < Config.frameCapacity limit
  · exact .inl ⟨h, if_pos ((inFrameWindow_iff hp i).2 h)⟩
  · exact .inr ⟨by omega, if_neg (fun h' => h ((inFrameWindow_iff hp i).1 h'))⟩

/-! ### The dispatcher, arm by arm -/

theorem exec_nop (s : State) : exec .nop s = .next s.respondWrite := rfl
theorem exec_build (s : State) : exec .build s = buildAt Config.fileSizeLimit s := rfl
theorem exec_start (s : State) : exec .start s = execStart s := rfl
theorem exec_stop (s : State) : exec .stop s = .next s.release.respondWrite := rfl
theorem exec_tick (s : State) : exec .tick s = execTick s := rfl
theorem exec_regWrite (r : ParamReg) (w : Word) (s : State) :
    exec (.regWrite r w) s = .next (writeRegister s w r).respondWrite := rfl
theorem exec_regRead (r : ReadReg) (s : State) :
    exec (.regRead r) s = .next (s.respondRead (readRegisterAt Config.fileSizeLimit s r)) := rfl
theorem exec_srcWrite (i : Nat) (v : Byte) (s : State) :
    exec (.srcWrite i v) s = srcWriteAt Config.fileSizeLimit i v s := rfl
theorem exec_srcRead (i : Nat) (s : State) :
    exec (.srcRead i) s = srcReadAt Config.fileSizeLimit i s := rfl
theorem exec_frameRead (i : Nat) (s : State) :
    exec (.frameRead i) s = frameReadAt Config.fileSizeLimit i s := rfl

/-! ### One transition -/

/-- Everything a step can do: nothing without an input, and otherwise what the decoder's verdict on
the earliest input says. -/
theorem step_cases (s : State) :
    (s.inputs = [] ∧ step s = .next s)
    ∨ ∃ x rest, s.inputs = x :: rest ∧
      ((∃ i, decode x = .instr i ∧ step s = exec i { s with inputs := rest })
      ∨ (decode x = .illegalCommand ∧
          step s = .next (State.raiseIllegalCommand { s with inputs := rest }).respondWrite)
      ∨ (decode x = .busError ∧ step s = .next (State.respondBusError { s with inputs := rest }))
      ∨ (decode x = .reset ∧ step s = .next (State.performReset { s with inputs := rest }))) := by
  cases hi : s.inputs with
  | nil => exact .inl ⟨rfl, by simp only [step, State.nextInput, hi]⟩
  | cons x rest =>
    refine .inr ⟨x, rest, rfl, ?_⟩
    cases hd : decode x with
    | instr i => exact .inl ⟨i, rfl, by simp only [step, State.nextInput, hi, hd]⟩
    | illegalCommand => exact .inr (.inl ⟨rfl, by simp only [step, State.nextInput, hi, hd]⟩)
    | busError => exact .inr (.inr (.inl ⟨rfl, by simp only [step, State.nextInput, hi, hd]⟩))
    | reset => exact .inr (.inr (.inr ⟨rfl, by simp only [step, State.nextInput, hi, hd]⟩))

/-- The memories of the block after reset are canonical. -/
theorem State.reset_memories_wf :
    Memory.wf State.reset.src = true ∧ Memory.wf State.reset.frame = true := ⟨rfl, rfl⟩

end Sys2Proof.Machine
end

