-- ==== Sys2Proof/Laws/PerInstr.lean ====
section
/-!
SUPPORT. Statements made of every operation, one lemma for each constructor.
-/
namespace Sys2Proof.Laws

/-- The encoding of a well-formed operation is a TICK or a transaction that the table of
20_memory.md R40 admits. -/
def EncodesLegally.Statement (i : Instr) : Prop :=
  i.WellFormed → encode i = .tick
    ∨ ∃ r, encode i = .bus r ∧ Sys2Proof.Machine.Admitted Config.fileSizeLimit r

/-- A 32-bit write to CTRL is admitted. -/
theorem admitted_ctrlWrite (limit : Nat) (w : Word) :
    Sys2Proof.Machine.Admitted limit ⟨.write, .w32, ctrlOffset, w⟩ := .inr (.inl ⟨rfl, rfl, .inl rfl⟩)

/-- The address of byte i of a window, where it fits the address lines. -/
theorem window_toNat {base i : Nat} (h : base + i < 2 ^ 20) :
    (BitVec.ofNat 20 (base + i)).toNat = base + i := by
  rw [BitVec.toNat_ofNat, Nat.mod_eq_of_lt h]

/-- The address of byte i of the SRC window. -/
theorem srcWindow_toNat {i : Nat} (h : i < Config.fileSizeLimit) :
    (BitVec.ofNat 20 (srcBase + i)).toNat = 0x40000 + i :=
  window_toNat (by have := Config.fileSizeLimit_le; unfold srcBase; omega)

/-- The address of byte i of the FRAME window. -/
theorem frameWindow_toNat {i : Nat} (h : i < Config.frameCapacity Config.fileSizeLimit) :
    (BitVec.ofNat 20 (frameBase + i)).toNat = 0x80000 + i :=
  window_toNat (by
    have := Config.fileSizeLimit_le
    rw [Config.frameCapacity_eq] at h
    unfold frameBase; omega)

theorem EncodesLegally.nop : EncodesLegally.Statement .nop :=
  fun _ => .inr ⟨_, rfl, admitted_ctrlWrite _ _⟩

theorem EncodesLegally.build : EncodesLegally.Statement .build :=
  fun _ => .inr ⟨_, rfl, admitted_ctrlWrite _ _⟩

theorem EncodesLegally.start : EncodesLegally.Statement .start :=
  fun _ => .inr ⟨_, rfl, admitted_ctrlWrite _ _⟩

theorem EncodesLegally.stop : EncodesLegally.Statement .stop :=
  fun _ => .inr ⟨_, rfl, admitted_ctrlWrite _ _⟩

theorem EncodesLegally.tick : EncodesLegally.Statement .tick := fun _ => .inl rfl

theorem EncodesLegally.regWrite (r : ParamReg) (w : Word) :
    EncodesLegally.Statement (.regWrite r w) := fun _ =>
  .inr ⟨_, rfl, .inr (.inl ⟨rfl, rfl, .inr ((paramRegAt_isSome_iff _).1 (by
    rw [paramRegAt_offset]; rfl))⟩)⟩

theorem EncodesLegally.regRead (r : ReadReg) : EncodesLegally.Statement (.regRead r) := fun _ =>
  .inr ⟨_, rfl, .inl ⟨rfl, rfl, (readRegAt_isSome_iff _).1 (by rw [readRegAt_offset]; rfl)⟩⟩

theorem EncodesLegally.srcWrite (i : Nat) (v : Byte) : EncodesLegally.Statement (.srcWrite i v) :=
  fun h => by
    have hi := (srcWrite_wellFormed_iff i v).1 h
    have ha := srcWindow_toNat hi
    refine .inr ⟨_, rfl, .inr (.inr (.inl ⟨rfl, ?_⟩))⟩
    simp only [ha]; omega

theorem EncodesLegally.srcRead (i : Nat) : EncodesLegally.Statement (.srcRead i) :=
  fun h => by
    have hi := (srcRead_wellFormed_iff i).1 h
    have ha := srcWindow_toNat hi
    refine .inr ⟨_, rfl, .inr (.inr (.inl ⟨rfl, ?_⟩))⟩
    simp only [ha]; omega

theorem EncodesLegally.frameRead (i : Nat) : EncodesLegally.Statement (.frameRead i) :=
  fun h => by
    have hi := (frameRead_wellFormed_iff i).1 h
    have ha := frameWindow_toNat hi
    rw [Config.frameCapacity_eq] at hi
    refine .inr ⟨_, rfl, .inr (.inr (.inr ⟨rfl, rfl, ?_⟩))⟩
    simp only [ha]; omega

end Sys2Proof.Laws
end

