-- ==== Sys2Proof/Tests/Slice0.lean ====
section
/-!
SUPPORT. Tests. Expected values are the worked examples and vectors of spec/95_test_vectors.md (named
W…, V-…, T…, B…) or hand calculations from the rules cited. The last part shows, for each statement
with hypotheses, concrete values that meet them together.
-/
namespace Sys2Proof.Tests
open Sys2Proof Sys2Proof.Machine

/-! ### Helpers -/

/-- A field of the next state, if there is one. -/
def nxt {α : Type} (o : Host.Outcome State Fault Refusal) (f : State → α) : Option α :=
  match o with
  | .next t => some (f t)
  | _ => none

/-- The fault, if there is one. -/
def flt (o : Host.Outcome State Fault Refusal) : Option Fault :=
  match o with
  | .fault r => some r
  | _ => none

/-- Right after reset but for a source of one byte and the rate 24000. -/
def source (b : Byte) : State := { State.reset with srcLen := 1, baud := 24000, src := [(0, b)] }

/-- The same in BinaryLoader mode at load address 1. -/
def binarySource : State := { source 0x42 with fmt := .binaryLoader, loadAddr := 1 }

/-- READY with the 257 bytes f as the frame. -/
def builtState (f : List Byte) : State := { source 0xE6 with
  ctrl := .ready, frameLen := 257, halfBit := 1, frame := Memory.writeFrom [] 0 f }

/-- The frame of `source 0xE6` is built. -/
def readyState : State := builtState (tapeImageFrame [0xE6])

/-- That frame is playing, with the cursor at c. -/
def playingState (c : Cursor) : State := { readyState with ctrl := .playing, cursor := c }

/-- That frame has been played. -/
def finishedState : State := { readyState with ctrl := .finished, cursor := ⟨257, 7, true, 0, true⟩ }

/-- Playing a frame of which one byte matters: the states of V-TICK. -/
def tickState (k : Nat) (b : Byte) (c : Cursor) (h : BitVec 15) (n : BitVec 17) : State :=
  { State.reset with ctrl := .playing, frame := [(k, b)], cursor := c, halfBit := h, frameLen := n }

/-- The parameters of V-VAL. -/
def valState (n : Word) (f : Format) (a b : Word) : State :=
  { State.reset with srcLen := n, fmt := f, loadAddr := a, baud := b, src := [(0, 0), (1, 0), (2, 0), (3, 0), (4, 0)] }

/-- STATE, ERR_CODE, FRAME_LEN and HALF_BIT, as in V-VAL. -/
def valResult (s : State) : Controller × ErrorCode × Nat × Nat :=
  (s.ctrl, s.errCode, s.frameLen.toNat, s.halfBit.toNat)

/-! ### Well-formedness: each check refuses an ill-formed operation -/

theorem test_srcWrite_index_checked :
    (Instr.srcWrite 16 0xAB).wellFormedAt 16 = false ∧ (Instr.srcWrite 15 0xAB).wellFormedAt 16 = true := by
  decide

theorem test_srcRead_index_checked :
    (Instr.srcRead 16).wellFormedAt 16 = false ∧ (Instr.srcRead 15).wellFormedAt 16 = true := by decide

theorem test_frameRead_index_checked :
    (Instr.frameRead 282).wellFormedAt 16 = false ∧ (Instr.frameRead 281).wellFormedAt 16 = true := by
  decide

/-- An index that no FILE_SIZE_LIMIT allows is refused whatever the block's is. -/
theorem test_index_past_every_limit : ¬ (Instr.srcRead 65536).WellFormed := by
  rw [srcRead_wellFormed_iff]
  exact Nat.not_lt.2 Config.fileSizeLimit_le

/-! ### Decoding: a transaction of each row, written from its encoding lines -/

theorem test_decode_nop : decode (.bus ⟨.write, .w32, 0x00000, 0x00000000⟩) = .instr .nop := by decide
theorem test_decode_build : decode (.bus ⟨.write, .w32, 0x00000, 0x00000001⟩) = .instr .build := by decide
theorem test_decode_start : decode (.bus ⟨.write, .w32, 0x00000, 0x00000002⟩) = .instr .start := by decide
theorem test_decode_stop : decode (.bus ⟨.write, .w32, 0x00000, 0x00000003⟩) = .instr .stop := by decide
theorem test_decode_tick : decode .tick = .instr .tick := by decide
theorem test_decode_regWrite :
    [0x0000C, 0x00010, 0x00014, 0x00018].map (fun a => decode (.bus ⟨.write, .w32, a, 0x00000960⟩))
      = [.instr (.regWrite .mode 0x960), .instr (.regWrite .baud 0x960),
         .instr (.regWrite .loadAddr 0x960), .instr (.regWrite .srcLen 0x960)] := by decide
theorem test_decode_regRead :
    [0x00004, 0x00008, 0x0000C, 0x00010, 0x00014, 0x00018, 0x0001C, 0x00020, 0x00024, 0x00028,
     0x0002C, 0x00030, 0x00034].map (fun a => decode (.bus ⟨.read, .w32, a, 0⟩))
      = [.instr (.regRead .status), .instr (.regRead .errCode), .instr (.regRead .mode),
         .instr (.regRead .baud), .instr (.regRead .loadAddr), .instr (.regRead .srcLen),
         .instr (.regRead .frameLen), .instr (.regRead .halfBit), .instr (.regRead .cursorPos),
         .instr (.regRead .cursorBit), .instr (.regRead .hbCnt), .instr (.regRead .sampleOut),
         .instr (.regRead .limit)] := by decide
theorem test_decode_srcWrite :
    decodeAt 16 (.bus ⟨.write, .w8, 0x40003, 0xFFFFFFAB⟩) = .instr (.srcWrite 3 0xAB) := by decide
theorem test_decode_srcRead :
    decodeAt 16 (.bus ⟨.read, .w8, 0x40005, 0⟩) = .instr (.srcRead 5) := by decide
theorem test_decode_frameRead :
    decodeAt 16 (.bus ⟨.read, .w8, 0x80119, 0⟩) = .instr (.frameRead 281) := by decide

/-- V-BUS B4 to B11, B13, B14 and B16: BUS_ERROR. -/
theorem test_decode_bus_errors :
    ([⟨.read, .w32, 0x00000, 0⟩, ⟨.write, .w8, 0x00000, 1⟩, ⟨.read, .w32, 0x00006, 0⟩,
      ⟨.read, .w32, 0x00038, 0⟩, ⟨.read, .w32, 0x00040, 0⟩, ⟨.write, .w32, 0x00004, 0⟩,
      ⟨.write, .w32, 0x0001C, 5⟩, ⟨.read, .w32, 0x40000, 0⟩, ⟨.read, .w8, 0x40010, 0⟩,
      ⟨.write, .w8, 0x80000, 0x55⟩, ⟨.read, .w8, 0x8011A, 0⟩] : List Request).all
      (fun r => decodeAt 16 (.bus r) == .busError) = true := by decide

/-- V-BUS B18 and B19: reserved CTRL words. -/
theorem test_decode_reserved_words :
    ([0x00000010, 0x80000001, 4] : List Word).all
      (fun w => decode (.bus ⟨.write, .w32, 0x00000, w⟩) == .illegalCommand) = true := by decide

/-- The opcode table's words: BUILD, TICK, a REG_READ address, SRC_READ's and FRAME_READ's. -/
theorem test_decodeTableWord :
    [decodeTableWord 32 1, decodeTableWord 8 1, decodeTableWord 24 0x00034, decodeTableWord 24 0x40000,
      decodeTableWord 24 0x80000]
      = [some .build, some .tick, some (.regRead .limit), some (.srcRead 0), some (.frameRead 0)] := by
  decide

/-- A table word runs as the first operation after reset. -/
theorem test_withFetchWord_runs :
    nxt (step (State.reset.withFetchWord 24 0x80000)) (fun t => t.response) = some (some ⟨.ok, 0⟩)
    ∧ nxt (step (State.reset.withFetchWord 32 2)) (fun t => (t.ill, t.errCode))
      = some (true, .illegalCommand) := by decide

/-! ### BUILD -/

/-- V-CK. -/
theorem test_checksum_vectors :
    ([[0x01, 0x02, 0x03], [0x42], [0xE6], [0, 0, 0], [0xFF, 0xFF], [0xFF, 0x01, 0x00],
      [0x80, 0x80, 0x80], [0x01, 0xFF], [0x01, 0x02, 0xFF], [0xFF, 0xFF, 0xFF, 0xFF], [0x10, 0x20],
      [0xC3, 0x00], [0, 1, 2, 3, 4, 5, 6, 7, 8, 9]] : List (List Byte)).map checksum
      = [0x0306, 0x0042, 0x00E6, 0x0000, 0xFFFE, 0x0100, 0x0180, 0x0100, 0x0302, 0xFFFC, 0x1030,
         0xC3C3, 0x242D] := by decide +kernel

/-- V-HB. -/
theorem test_half_bit_vectors :
    ([1, 7, 300, 600, 1200, 1300, 2400, 4800, 8000, 9600, 11999, 12000, 12001, 16001, 24000] :
      List Word).map (fun b => (halfBitOf b).toNat)
      = [24000, 3428, 80, 40, 20, 18, 10, 5, 3, 2, 2, 2, 1, 1, 1] := by decide

/-- V-VAL, the rows that fail: V2, V3, V5, V6, V8, V10, V12, V14, V15, V16. -/
theorem test_build_validation :
    [buildErrorAt 16 (valState 17 .tapeImage 0 0), buildErrorAt 16 (valState 0 .tapeImage 0 0),
     buildErrorAt 16 (valState 5 .binaryLoader 0x11 1300), buildErrorAt 16 (valState 5 .binaryLoader 0 0),
     buildErrorAt 16 (valState 5 .tapeImage 0 24001),
     buildErrorAt 65536 (valState 3 .binaryLoader 0xFFFE 1300),
     buildErrorAt 65536 (valState 1 .binaryLoader 0x10000 1300),
     buildErrorAt 65536 (valState 65536 .binaryLoader 1 1),
     buildErrorAt 16 (valState 17 .binaryLoader 0x11 0), buildErrorAt 16 (valState 0 .binaryLoader 0x11 0)]
      = [some .fileTooLarge, some .emptyInput, some .invalidLoadAddress, some .invalidBaudRate,
         some .invalidBaudRate, some .invalidLoadAddress, some .invalidLoadAddress,
         some .invalidLoadAddress, some .fileTooLarge, some .emptyInput] := by decide

/-- V-VAL V4 and V7: LOAD_ADDR equal to the limit is accepted, and TapeImage ignores LOAD_ADDR. -/
theorem test_build_accepts :
    nxt (buildAt 16 (valState 5 .binaryLoader 0x10 1300)) valResult = some (.ready, .none, 271, 18)
    ∧ nxt (buildAt 16 (valState 5 .tapeImage 0xFFFFF 24000)) valResult
      = some (.ready, .none, 262, 1) := by decide +kernel

/-- V-LAY. -/
theorem test_frame_layouts :
    [(tapeImageFrame [0x12]).drop 256, (tapeImageFrame [0xE6]).drop 256,
     (tapeImageFrame [0x00, 0xE6]).drop 256, (tapeImageFrame [0xE6, 0xE6]).drop 256,
     (binaryLoaderFrame 0x0100 [1, 2, 3]).drop 256, (binaryLoaderFrame 0 [0xE6]).drop 256,
     (binaryLoaderFrame 0xFFFE [0xC3, 0x00]).drop 256]
      = [[0xE6, 0x12], [0xE6], [0xE6, 0x00, 0xE6], [0xE6, 0xE6],
         [0xE6, 1, 0, 1, 2, 1, 2, 3, 0, 0, 0xE6, 3, 6], [0xE6, 0, 0, 0, 0, 0xE6, 0, 0, 0xE6, 0, 0xE6],
         [0xE6, 0xFF, 0xFE, 0xFF, 0xFF, 0xC3, 0, 0, 0, 0xE6, 0xC3, 0xC3]] := by decide +kernel

/-- V-ERR E1: BUILD in PLAYING is an IllegalCommand before any check. -/
theorem test_build_in_playing :
    nxt (exec .build { playingState ⟨0, 5, false, 1, false⟩ with srcLen := 0 })
      (fun t => (t.ctrl, t.ill, t.errCode, t.frameLen)) = some (.playing, true, .illegalCommand, 257) := by
  decide

/-! ### START and TICK -/

/-- V-START, READY with HALF_BIT 18, and FINISHED. -/
theorem test_start :
    nxt (exec .start { readyState with halfBit := 18 }) (fun t => (t.ctrl, t.cursor))
      = some (.playing, ⟨0, 7, true, 17, false⟩)
    ∧ nxt (exec .start finishedState) (fun t => (t.ctrl, statusWord t)) = some (.finished, 0xB) := by decide

/-- V-TICK T1 to T7. -/
theorem test_tick_playing :
    [tickState 256 0xE6 ⟨256, 7, true, 0, false⟩ 2 258, tickState 256 0xE6 ⟨256, 7, false, 0, false⟩ 2 258,
     tickState 256 0xE6 ⟨256, 7, true, 1, false⟩ 2 258, tickState 5 0x01 ⟨5, 0, false, 0, false⟩ 1 300,
     tickState 256 0xE6 ⟨256, 0, false, 0, false⟩ 1 257, tickState 0 0x00 ⟨0, 3, true, 0, false⟩ 18 269,
     tickState 0 0x00 ⟨0, 3, false, 5, false⟩ 18 269].map
        (fun s => nxt (exec .tick s) (fun t => (t.sampleOut, t.ctrl, t.cursor)))
      = [some (.neg, .playing, ⟨256, 7, false, 1, false⟩), some (.pos, .playing, ⟨256, 6, true, 1, false⟩),
         some (.neg, .playing, ⟨256, 7, true, 0, false⟩), some (.pos, .playing, ⟨6, 7, true, 0, false⟩),
         some (.neg, .finished, ⟨257, 7, true, 0, true⟩), some (.pos, .playing, ⟨0, 3, false, 17, false⟩),
         some (.neg, .playing, ⟨0, 3, false, 4, false⟩)] := by decide

/-- V-TICK T8: silence in FINISHED. -/
theorem test_tick_finished :
    nxt (exec .tick { finishedState with sampleOut := .neg }) (fun t => (t.sampleOut, t.ctrl, t.cursor))
      = some (.zero, .finished, ⟨257, 7, true, 0, true⟩) := by decide

/-! ### NOP, STOP and the host bus -/

/-- V-BUS B20. -/
theorem test_nop : nxt (exec .nop readyState) (fun t => (t.ctrl, t.ill, t.response.map (·.resp)))
    = some (.ready, false, some .ok) := by decide

/-- V-STOP, from PLAYING: SAMPLE_OUT is kept. -/
theorem test_stop :
    nxt (exec .stop { playingState ⟨0, 5, false, 1, false⟩ with sampleOut := .pos, ill := true })
      (fun t => (valResult t, statusWord t, cursorBitWord t.cursor, t.sampleOut))
      = some ((.idle, .none, 0, 0), 0, 0x0F, .pos) := by decide

/-- V-BUS B1. -/
theorem test_mode_write :
    nxt (exec (.regWrite .mode 0xFFFFFFFF) State.reset) (fun t => readRegisterAt 16 t .mode) = some 1 := by
  decide

/-- V-BUS B3. -/
theorem test_baud_write :
    nxt (exec (.regWrite .baud 2400) State.reset) (fun t => readRegisterAt 16 t .baud) = some 0x960 := by
  decide

/-- V-RST: the registers after reset in the order of the register map, and B17 for LIMIT. -/
theorem test_registers_after_reset :
    [ReadReg.status, .errCode, .mode, .baud, .loadAddr, .srcLen, .frameLen, .halfBit, .cursorPos,
      .cursorBit, .hbCnt, .sampleOut, .limit].map (readRegisterAt 16 State.reset)
      = [0, 0, 0, 0x514, 0, 0, 0, 0, 0, 0x0F, 0, 0, 0x10] := by decide

/-- P1, rows 15 to 18: the registers after the last TICK of a playback. -/
theorem test_registers_after_playback :
    nxt (exec .tick (playingState ⟨256, 0, false, 0, false⟩)) (fun t =>
      [ReadReg.status, .cursorPos, .cursorBit, .sampleOut].map (readRegisterAt 16 t))
      = some [3, 0x101, 0x1F, 2] := by decide +kernel

/-- V-BUS B12. -/
theorem test_srcWrite :
    nxt (srcWriteAt 16 3 0xAB State.reset) (fun t => (Memory.read t.src 3, Memory.read t.src 2))
      = some (some 0xAB, none) := by decide

/-- V-BUS B12 and B21. -/
theorem test_srcRead :
    nxt (srcReadAt 16 3 { State.reset with src := [(3, 0xAB)] }) (fun t => t.response)
      = some (some ⟨.ok, 0xAB⟩)
    ∧ flt (srcReadAt 16 5 State.reset) = some .unwrittenSource := by decide

/-- V-BUS B15, and P1 row 9. -/
theorem test_frameRead :
    nxt (frameReadAt 16 281 State.reset) (fun t => t.response) = some (some ⟨.ok, 0⟩)
    ∧ nxt (frameReadAt 16 256 readyState) (fun t => t.response) = some (some ⟨.ok, 0xE6⟩) := by
  decide +kernel

/-- P4, row 17: a reset during playback. -/
theorem test_reset_in_playing :
    nxt (step { playingState ⟨0, 7, true, 76, false⟩ with sampleOut := .pos, inputs := [.rst, .tick] })
      (fun t => ([ReadReg.status, .baud, .hbCnt, .cursorBit, .sampleOut].map (readRegisterAt 16 t),
        t.inputs)) = some ([0, 0x514, 0, 0x0F, 0], [.tick]) := by decide

/-! ### The machine behind the host's interface -/

theorem test_core_reset : core.reset = State.reset := rfl

/-! ### Witnesses: concrete values that meet the hypotheses of the statements together -/

theorem source_valid (b : Byte) : BuildValid Config.fileSizeLimit (source b) :=
  ⟨Nat.le_refl 1, Config.fileSizeLimit_pos, nofun, (by decide : 1 ≤ (24000 : Word).toNat),
    (by decide : (24000 : Word).toNat ≤ 24000)⟩

theorem source_holds (b : Byte) : HoldsPayload (source b) [b] := by
  refine ⟨rfl, fun i hi => ?_⟩
  have h : i < 1 := hi
  obtain rfl : i = 0 := by omega
  rfl

theorem binarySource_valid : BuildValid Config.fileSizeLimit binarySource :=
  ⟨by decide, Config.fileSizeLimit_pos, fun _ => ⟨Config.fileSizeLimit_pos, by decide, by decide⟩,
    by decide, by decide⟩

theorem binarySource_holds : HoldsPayload binarySource [0x42] := by
  refine ⟨rfl, fun i hi => ?_⟩
  have h : i < 1 := hi
  obtain rfl : i = 0 := by omega
  rfl

/-- The two sources build, and the built states are READY. -/
theorem sources_build :
    (∃ t, exec .build (source 0xE6) = .next t ∧ t.ctrl = .ready)
    ∧ ∃ t, exec .build binarySource = .next t ∧ t.ctrl = .ready :=
  ⟨⟨_, exec_build_valid (by decide) (source_valid _) (source_holds _), rfl⟩,
    ⟨_, exec_build_valid (by decide) binarySource_valid binarySource_holds, rfl⟩⟩

/-- The frame of `source 0xE6` has 257 bytes. -/
theorem syncFrame_length : (tapeImageFrame [0xE6]).length = 257 := tapeImageFrame_length _

theorem builtState_frame {f : List Byte} (hl : f.length = 257) :
    HasFrame Config.fileSizeLimit (builtState f) := by
  refine ⟨(by decide : 257 ≤ (257 : BitVec 17).toNat), ?_, Nat.le_refl 1,
    (by decide : (1 : BitVec 15).toNat ≤ 24000), fun i hi => ?_⟩
  · have h := Config.fileSizeLimit_pos
    change 257 ≤ _; omega
  · have h : i < 257 := hi
    change (Memory.read (Memory.writeFrom [] 0 f) i).isSome = true
    rw [Memory.read_writeFrom, if_pos ⟨Nat.zero_le _, by omega⟩, Nat.sub_zero,
      List.getElem?_eq_getElem (by omega)]
    rfl

theorem builtState_memories {f : List Byte} (hl : f.length = 257) :
    MemoryInv Config.fileSizeLimit (builtState f) := by
  have h := Config.fileSizeLimit_pos
  refine ⟨rfl, ?_, Memory.wf_writeFrom Memory.wf_nil _ _, Memory.below_writeFrom rfl ?_⟩
  · change Memory.below Config.fileSizeLimit [(0, 0xE6)] = true
    simp only [Memory.below, List.all_cons, List.all_nil, Bool.and_true, decide_eq_true_eq]
    omega
  · rw [Config.frameCapacity_eq]; omega

/-- The invariant holds in READY. -/
theorem builtState_inv {f : List Byte} (hl : f.length = 257) : BlockInv (builtState f) :=
  ⟨⟨nofun, fun _ => ⟨builtState_frame hl, rfl⟩, nofun, nofun, nofun, nofun⟩,
    ⟨nofun, fun _ => .inl rfl, nofun⟩, builtState_memories hl⟩

theorem playingOf_inv {f : List Byte} (hl : f.length = 257) :
    BlockInv { builtState f with ctrl := .playing, cursor := ⟨0, 7, true, 0, false⟩ } :=
  ⟨⟨nofun, nofun, fun _ => ⟨builtState_frame hl, rfl, (by decide : 0 < (257 : BitVec 17).toNat),
      Nat.zero_le _⟩, nofun, nofun, nofun⟩,
    ⟨nofun, fun _ => .inl rfl, nofun⟩, builtState_memories hl⟩

theorem finishedOf_inv {f : List Byte} (hl : f.length = 257) :
    BlockInv { builtState f with ctrl := .finished, cursor := ⟨257, 7, true, 0, true⟩ } :=
  ⟨⟨nofun, nofun, nofun, fun _ => ⟨builtState_frame hl, rfl, rfl, rfl, rfl, rfl⟩,
      fun _ => rfl, fun _ => rfl⟩,
    ⟨nofun, fun _ => .inl rfl, nofun⟩, builtState_memories hl⟩

theorem readyState_inv : BlockInv readyState := builtState_inv syncFrame_length

/-- The invariant holds in PLAYING, at the first sample. -/
theorem playingState_inv : BlockInv (playingState ⟨0, 7, true, 0, false⟩) :=
  playingOf_inv syncFrame_length

/-- The invariant holds in FINISHED. -/
theorem finishedState_inv : BlockInv finishedState := finishedOf_inv syncFrame_length

/-- The invariant does not look at the inputs. -/
theorem inv_inputs {s : State} (h : BlockInv s) (l : List Input) : BlockInv { s with inputs := l } := h

theorem witness_DecodeOfEncodeIsTheInstruction :
    (Instr.srcWrite 0 0xAB).WellFormed ∧ (Instr.srcRead (Config.fileSizeLimit - 1)).WellFormed
    ∧ (Instr.frameRead (Config.fileSizeLimit + 265)).WellFormed := by
  have h := Config.fileSizeLimit_pos
  rw [srcWrite_wellFormed_iff, srcRead_wellFormed_iff, frameRead_wellFormed_iff, Config.frameCapacity_eq]
  omega

theorem witness_DecodedTransactionsAreTheirEncodings :
    decode (.bus ⟨.write, .w8, 0x40000, 0xFFFFFFAB⟩) = .instr (.srcWrite 0 0xAB)
    ∧ decode (.bus ⟨.write, .w32, 0x00010, 0xFFFFFFFF⟩) = .instr (.regWrite .baud 0xFFFFFFFF) := by decide

theorem witness_UnusedDataLinesAreIgnored : (0x1AB : Word).toNat % 256 = (0xAB : Word).toNat % 256 := by
  decide

theorem witness_StepRunsTheDecodedInstruction :
    ({ State.reset with inputs := [.tick, .rst] } : State).inputs = .tick :: [.rst]
    ∧ decode .tick = .instr .tick := ⟨rfl, rfl⟩

theorem witness_StepWithoutInputChangesNothing : State.reset.inputs = [] := rfl

theorem witness_IllegalTransactionsOnlyAnswerBusError :
    ({ State.reset with inputs := [.bus ⟨.read, .w32, 0x00038, 0⟩] } : State).inputs
      = .bus ⟨.read, .w32, 0x00038, 0⟩ :: []
    ∧ ¬ Admitted Config.fileSizeLimit ⟨.read, .w32, 0x00038, 0⟩ := by
  refine ⟨rfl, ?_⟩
  simp [Admitted]

/-- Each command word, the reserved words on both sides of the command map's end, and a next state. -/
theorem witness_ControlWritesRunTheirCommand :
    (∀ w : Word, ({ State.reset with inputs := [ctrlWrite w] } : State).inputs
      = .bus ⟨.write, .w32, 0x00000, w⟩ :: [])
    ∧ (4 : Word) ≠ 0 ∧ (4 : Word) ≠ 1 ∧ (4 : Word) ≠ 2 ∧ (4 : Word) ≠ 3
    ∧ ∃ t, step { State.reset with inputs := [ctrlWrite 0] } = .next t :=
  ⟨fun _ => rfl, by decide, by decide, by decide, by decide, _, rfl⟩

theorem witness_IllegalCommandsSetOnlyIllAndTheCode :
    ({ State.reset with inputs := [ctrlWrite 0x80000001] } : State).inputs
      = .bus ⟨.write, .w32, 0x00000, 0x80000001⟩ :: []
    ∧ (0x80000001 : Word) ≠ 0 ∧ (0x80000001 : Word) ≠ 1 ∧ (0x80000001 : Word) ≠ 2
    ∧ (0x80000001 : Word) ≠ 3 ∧ (playingState Cursor.idle).ctrl = .playing
    ∧ finishedState.ctrl ≠ .ready := ⟨rfl, by decide, by decide, by decide, by decide, rfl, by decide⟩

theorem witness_ResetTransitionWritesTheResetValues :
    ({ finishedState with inputs := [.rst] } : State).inputs = .rst :: [] := rfl

theorem witness_RegistersAfterResetReadAsTheTable :
    0 < Config.frameCapacity Config.fileSizeLimit
    ∧ Config.fileSizeLimit + 265 < Config.frameCapacity Config.fileSizeLimit := by
  rw [Config.frameCapacity_eq]; omega

/-- STOP and then a BUILD that has a next state. -/
theorem witness_StopReleasesTheFrameInEveryState :
    ∃ u, exec .build (source 0xE6).release.respondWrite = .next u ∧ (source 0xE6).ctrl ≠ .playing :=
  ⟨_, exec_build_valid (p := [0xE6]) (by decide) (source_valid 0xE6) (source_holds 0xE6), by decide⟩

theorem witness_StartBeginsPlaybackOnlyFromReady :
    (readyState.ctrl = .ready ∧ 1 ≤ readyState.halfBit.toNat)
    ∧ (({ readyState with halfBit := 24000 } : State).ctrl = .ready ∧ 1 ≤ (24000 : BitVec 15).toNat)
    ∧ State.reset.ctrl ≠ .ready := by decide

/-- One failing state for each check: a length past every limit, none, an address, and both sides of
the baud range. -/
theorem witness_FailingBuildReportsTheFirstFailingCheck :
    (State.reset.ctrl ≠ .playing)
    ∧ ¬ BuildValid Config.fileSizeLimit { State.reset with srcLen := 65537 }
    ∧ ¬ BuildValid Config.fileSizeLimit { State.reset with srcLen := 0 }
    ∧ ¬ BuildValid Config.fileSizeLimit { binarySource with loadAddr := 0x10000 }
    ∧ ¬ BuildValid Config.fileSizeLimit { State.reset with srcLen := 1, baud := 0 }
    ∧ ¬ BuildValid Config.fileSizeLimit { State.reset with srcLen := 1, baud := 24001 } := by
  have h := Config.fileSizeLimit_le
  have h1 : ¬ (65537 : Word).toNat ≤ 65536 := by decide
  have h2 : ¬ 1 ≤ (0 : Word).toNat := by decide
  have h3 : ¬ (0x10000 : Word).toNat ≤ 0xFFFF := by decide
  have h4 : ¬ (24001 : Word).toNat ≤ 24000 := by decide
  exact ⟨nofun, fun v => h1 (Nat.le_trans v.2.1 h), fun v => h2 v.1, fun v => h3 (v.2.2.1 rfl).2.1,
    fun v => h2 v.2.2.2.1, fun v => h4 v.2.2.2.2⟩

theorem witness_BuildWhilePlayingIsIllegalWhateverItsOperands :
    (playingState Cursor.idle).ctrl = .playing := rfl

/-- A valid BUILD outside PLAYING, with its byte written and with it unwritten. -/
theorem witness_BuildFaultsExactlyOnUnwrittenSource :
    ((source 0).ctrl ≠ .playing ∧ BuildValid Config.fileSizeLimit (source 0))
    ∧ ({ source 0 with src := [] } : State).ctrl ≠ .playing
    ∧ BuildValid Config.fileSizeLimit { source 0 with src := [] }
    ∧ Memory.read ({ source 0 with src := [] } : State).src 0 = none :=
  ⟨⟨by decide, source_valid 0⟩, by decide, source_valid 0, rfl⟩

/-- A payload that begins with a sync byte, and one that does not. -/
theorem witness_TapeImageBuildWritesTheFrame :
    ∀ b ∈ [(0xE6 : Byte), 0x12], (source b).ctrl ≠ .playing ∧ (source b).fmt = .tapeImage
      ∧ BuildValid Config.fileSizeLimit (source b) ∧ HoldsPayload (source b) [b] :=
  fun b _ => ⟨nofun, rfl, source_valid b, source_holds b⟩

theorem witness_BinaryLoaderBuildWritesTheFrame :
    binarySource.ctrl ≠ .playing ∧ binarySource.fmt = .binaryLoader
    ∧ BuildValid Config.fileSizeLimit binarySource ∧ HoldsPayload binarySource [0x42] :=
  ⟨by decide, rfl, binarySource_valid, binarySource_holds⟩

/-- Builds at BAUD 1, 12001 and 24000, and a register write. -/
theorem witness_HalfBitIsLatchedByBuild :
    (∀ b ∈ [(1 : Word), 12001, 24000], ∃ t, ({ source 0 with baud := b } : State).ctrl ≠ .playing
      ∧ exec .build { source 0 with baud := b } = .next t ∧ t.ctrl = .ready)
    ∧ ∃ t, exec (.regWrite .baud 300) readyState = .next t := by
  refine ⟨?_, _, rfl⟩
  simp only [List.forall_mem_cons]
  refine ⟨?_, ?_, ?_, nofun⟩ <;> exact ⟨_, by decide, exec_build_valid (p := [0]) (by decide)
    ⟨Nat.le_refl 1, Config.fileSizeLimit_pos, nofun, by decide, by decide⟩ (source_holds 0), rfl⟩

theorem witness_FrameDecodesBackToItsSource :
    ((source 0xE6).ctrl ≠ .playing ∧ BuildValid Config.fileSizeLimit (source 0xE6)
      ∧ HoldsPayload (source 0xE6) [0xE6] ∧ (source 0xE6).fmt = .tapeImage)
    ∧ binarySource.ctrl ≠ .playing ∧ BuildValid Config.fileSizeLimit binarySource
    ∧ HoldsPayload binarySource [0x42] ∧ binarySource.fmt = .binaryLoader :=
  ⟨⟨by decide, source_valid _, source_holds _, rfl⟩, by decide, binarySource_valid,
    binarySource_holds, rfl⟩

/-- At 24000 baud, where 2 × BAUD divides 48000: a BUILD, a START, and an index of their playback. -/
theorem witness_PlaybackNeverOutlastsItsNominalTime :
    ∃ t u, (source 0).ctrl ≠ .playing ∧ exec .build (source 0) = .next t ∧ t.ctrl = .ready
      ∧ exec .start t = .next u ∧ 48000 % (2 * (source 0).baud.toNat) = 0
      ∧ 0 < 16 * t.halfBit.toNat * t.frameLen.toNat :=
  ⟨_, _, by decide, exec_build_valid (by decide) (source_valid 0) (source_holds 0), rfl, rfl, by decide,
    by decide +kernel⟩

theorem witness_TickOutsidePlayingIsSilent : readyState.ctrl ≠ .playing ∧ State.reset.ctrl ≠ .playing := by
  decide

/-- One cursor for each level of the advance. -/
theorem witness_TickSendsTheBitAndAdvances :
    (readyState.ctrl ≠ .playing)
    ∧ ∀ c ∈ [(⟨0, 7, true, 1, false⟩ : Cursor), ⟨0, 7, true, 0, false⟩, ⟨0, 7, false, 0, false⟩,
      ⟨0, 0, false, 0, false⟩, ⟨256, 0, false, 0, false⟩],
      (playingState c).ctrl = .playing ∧ 1 ≤ (playingState c).halfBit.toNat
      ∧ (playingState c).cursor.bytePos.toNat < (playingState c).frameLen.toNat := by decide

/-- A READY state that meets the invariant starts; j = 4111 is the last index of its schedule. -/
theorem witness_PlaybackFollowsTheSampleSchedule :
    BlockInv readyState ∧ readyState.ctrl = .ready ∧ (∃ t, exec .start readyState = .next t)
    ∧ 4111 < 16 * readyState.halfBit.toNat * readyState.frameLen.toNat
    ∧ 16 * readyState.halfBit.toNat * readyState.frameLen.toNat < 4113 :=
  ⟨readyState_inv, rfl, ⟨_, rfl⟩, by decide, by decide⟩

theorem witness_PhaseTogglesSixteenTimesPerByte :
    BlockInv readyState ∧ readyState.ctrl = .ready ∧ ∃ t, exec .start readyState = .next t :=
  ⟨readyState_inv, rfl, _, rfl⟩

/-- The last bit and the last boundary of the frame. -/
theorem witness_LineCodeIsSelfClocking :
    BlockInv readyState ∧ readyState.ctrl = .ready ∧ (∃ t, exec .start readyState = .next t)
    ∧ 2055 < 8 * readyState.frameLen.toNat ∧ 2054 + 1 < 8 * readyState.frameLen.toNat :=
  ⟨readyState_inv, rfl, ⟨_, rfl⟩, by decide, by decide⟩

/-- FINISHED, and a transition that leaves it. -/
theorem witness_FinishedIsSilentUntilBuildStopOrReset :
    finishedState.ctrl = .finished
    ∧ ∃ t, ({ finishedState with inputs := [ctrlWrite 3] } : State).ctrl = .finished
      ∧ step { finishedState with inputs := [ctrlWrite 3] } = .next t ∧ t.ctrl ≠ .finished :=
  ⟨rfl, _, rfl, rfl, nofun⟩

theorem witness_LateParameterWritesNeverReachPlayback :
    ∃ t, tickTimes 1 (playingState ⟨0, 7, true, 0, false⟩) = .next t := ⟨_, rfl⟩

/-- Register-space addresses beside the parameter registers: the first and the last. -/
theorem witness_RegisterWritesStoreTheWord :
    ((0x00004 : HostAddr).toNat < 0x40 ∧ (0x0003F : HostAddr).toNat < 0x40)
    ∧ ((0x00004 : HostAddr) ≠ 0x00000 ∧ (0x00004 : HostAddr) ≠ 0x0000C ∧ (0x00004 : HostAddr) ≠ 0x00010
      ∧ (0x00004 : HostAddr) ≠ 0x00014 ∧ (0x00004 : HostAddr) ≠ 0x00018)
    ∧ (0x0003F : HostAddr) ≠ 0x00000 ∧ (0x0003F : HostAddr) ≠ 0x0000C ∧ (0x0003F : HostAddr) ≠ 0x00010
      ∧ (0x0003F : HostAddr) ≠ 0x00014 ∧ (0x0003F : HostAddr) ≠ 0x00018 := by decide

theorem witness_RegisterReadsReturnTheFields :
    (0x00004 : HostAddr).toNat < 0x40 ∧ (0x00038 : HostAddr).toNat < 0x40
    ∧ (0x0003C : HostAddr).toNat < 0x40 ∧ (0x00006 : HostAddr).toNat < 0x40
    ∧ (0x00006 : HostAddr).toNat % 4 ≠ 0 := by decide

/-- The first and last bytes of the SRC window, and of the addresses past it. -/
theorem witness_SourceWriteStoresOneByte :
    0 < Config.fileSizeLimit ∧ Config.fileSizeLimit - 1 < Config.fileSizeLimit
    ∧ (Config.fileSizeLimit ≤ Config.fileSizeLimit ∧ Config.fileSizeLimit < 0x40000)
    ∧ (Config.fileSizeLimit ≤ 0x3FFFF ∧ 0x3FFFF < 0x40000) := by
  have h := Config.fileSizeLimit_pos
  have h' := Config.fileSizeLimit_le
  omega

/-- The same, with a written byte and an unwritten one. -/
theorem witness_SourceReadReturnsTheByte :
    0 < Config.fileSizeLimit ∧ (Config.fileSizeLimit ≤ 0x3FFFF ∧ 0x3FFFF < 0x40000)
    ∧ Memory.read (source 0xE6).src 0 = some 0xE6 ∧ Memory.read State.reset.src 0 = none := by
  have h := Config.fileSizeLimit_pos
  have h' := Config.fileSizeLimit_le
  refine ⟨by omega, by omega, rfl, rfl⟩

/-- The last byte of the frame and the first past it, the ends of the window and past it. -/
theorem witness_FrameReadReturnsOnlyTheFrame :
    257 < Config.frameCapacity Config.fileSizeLimit
    ∧ (256 < readyState.frameLen.toNat ∧ Memory.read readyState.frame 256 = some 0xE6)
    ∧ readyState.frameLen.toNat ≤ 257
    ∧ (Config.frameCapacity Config.fileSizeLimit ≤ Config.fileSizeLimit + 266
      ∧ Config.fileSizeLimit + 266 < 0x80000) := by
  have h := Config.fileSizeLimit_pos
  have h' := Config.fileSizeLimit_le
  rw [Config.frameCapacity_eq]
  refine ⟨by omega, ⟨by decide, by decide +kernel⟩, Nat.le_refl 257, Nat.le_refl _,
    Nat.lt_of_le_of_lt (Nat.add_le_add_right h' 266) (by decide)⟩

theorem witness_IndexesPastTheWindowsAnswerBusError :
    Config.fileSizeLimit ≤ 65536
    ∧ Config.frameCapacity Config.fileSizeLimit ≤ Config.fileSizeLimit + 266 :=
  ⟨Config.fileSizeLimit_le, Nat.le_refl _⟩

theorem witness_SamplePortsFollowTheSymbol :
    State.reset.sampleOut = .zero ∧ ({ State.reset with sampleOut := .pos } : State).sampleOut = .pos
    ∧ ({ State.reset with sampleOut := .neg } : State).sampleOut = .neg := ⟨rfl, rfl, rfl⟩

/-- READY, PLAYING and FINISHED states that meet the invariant have a next state. -/
theorem witness_StepKeepsTheInvariant :
    (BlockInv readyState ∧ ∃ t, step readyState = .next t)
    ∧ (BlockInv { playingState ⟨0, 7, true, 0, false⟩ with inputs := [.tick] }
      ∧ ∃ t, step { playingState ⟨0, 7, true, 0, false⟩ with inputs := [.tick] } = .next t)
    ∧ BlockInv { finishedState with inputs := [ctrlWrite 3] }
    ∧ ∃ t, step { finishedState with inputs := [ctrlWrite 3] } = .next t :=
  ⟨⟨readyState_inv, _, rfl⟩, ⟨inv_inputs playingState_inv _, _, rfl⟩, inv_inputs finishedState_inv _, _, rfl⟩

theorem witness_FrameIsImmutableUntilBuildStopOrReset :
    ∃ t, ({ playingState ⟨0, 7, true, 0, false⟩ with inputs := [.tick] } : State).inputs = .tick :: []
      ∧ step { playingState ⟨0, 7, true, 0, false⟩ with inputs := [.tick] } = .next t
      ∧ decode .tick ≠ .instr .build ∧ decode .tick ≠ .instr .stop ∧ decode .tick ≠ .reset :=
  ⟨_, rfl, rfl, nofun, nofun, nofun⟩

theorem witness_IllStaysSetUntilStopOrReset :
    ∃ t, step { State.reset with ill := true, inputs := [ctrlWrite 3] } = .next t
      ∧ ({ State.reset with ill := true, inputs := [ctrlWrite 3] } : State).ill = true
      ∧ t.ill = false := ⟨_, rfl, rfl, rfl⟩

/-- A BUILD in PLAYING, a START outside READY, a TICK in and outside PLAYING, and a reset. -/
theorem witness_ControllerFollowsTheTransitionTable :
    (∃ t, exec .build (playingState Cursor.idle) = .next t ∧ (playingState Cursor.idle).ctrl = .playing)
    ∧ (∃ t, exec .start State.reset = .next t ∧ State.reset.ctrl ≠ .ready)
    ∧ (∃ t, exec .tick (playingState Cursor.idle) = .next t)
    ∧ (∃ t, exec .tick State.reset = .next t ∧ State.reset.ctrl ≠ .playing)
    ∧ ∃ t, step { finishedState with inputs := [.rst] } = .next t :=
  ⟨⟨_, rfl, rfl⟩, ⟨_, rfl, nofun⟩, ⟨_, rfl⟩, ⟨_, rfl, nofun⟩, _, rfl⟩

/-- Each kind of state does change: by a TICK, a START, a reserved CTRL word, a STOP, the four
parameter writes, SRC_WRITE and BUILD. -/
theorem witness_StateChangesOnlyByItsWriters :
    (∃ t, step { playingState ⟨0, 7, true, 0, false⟩ with inputs := [.tick] } = .next t
      ∧ t.sampleOut ≠ .zero ∧ t.cursor ≠ ⟨0, 7, true, 0, false⟩ ∧ decode .tick ≠ .reset)
    ∧ (∃ t, step { readyState with inputs := [ctrlWrite 2] } = .next t ∧ t.ctrl ≠ .ready)
    ∧ (∃ t, step { State.reset with inputs := [ctrlWrite 4] } = .next t ∧ State.reset.ill = false
      ∧ t.ill = true ∧ t.errCode ≠ State.reset.errCode)
    ∧ (∃ t, step { finishedState with ill := true, inputs := [ctrlWrite 3] } = .next t ∧ t.ill = false
      ∧ t.frameLen ≠ finishedState.frameLen ∧ t.halfBit ≠ finishedState.halfBit)
    ∧ (∃ t, exec (.regWrite .mode 1) State.reset = .next t ∧ t.fmt ≠ State.reset.fmt)
    ∧ (∃ t, exec (.regWrite .baud 1) State.reset = .next t ∧ t.baud ≠ State.reset.baud)
    ∧ (∃ t, exec (.regWrite .loadAddr 1) State.reset = .next t ∧ t.loadAddr ≠ State.reset.loadAddr)
    ∧ (∃ t, exec (.regWrite .srcLen 1) State.reset = .next t ∧ t.srcLen ≠ State.reset.srcLen)
    ∧ (∃ t, exec (.srcWrite 0 0xAB) State.reset = .next t ∧ t.src ≠ State.reset.src)
    ∧ ∃ t, exec .build (source 0) = .next t ∧ t.frame ≠ (source 0).frame := by
  refine ⟨⟨_, rfl, ?_, nofun, nofun⟩, ⟨_, rfl, nofun⟩, ⟨_, rfl, rfl, rfl, nofun⟩,
    ⟨_, rfl, rfl, nofun, nofun⟩, ⟨_, rfl, nofun⟩, ⟨_, rfl, by decide⟩, ⟨_, rfl, by decide⟩,
    ⟨_, rfl, by decide⟩, ?_,
    ⟨_, exec_build_valid (by decide) (source_valid 0) (source_holds 0), by decide +kernel⟩⟩
  · decide +kernel
  · rcases srcWriteAt_cases Config.fileSizeLimit 0 0xAB State.reset with ⟨-, h⟩ | ⟨h, -⟩
    · exact ⟨_, h, by decide⟩
    · exact absurd h (Nat.not_le.2 Config.fileSizeLimit_pos)

theorem witness_DataLevelsLieInTheStatedRange :
    ({ State.reset with sampleOut := .pos } : State).sampleOut = .pos
    ∧ ({ State.reset with sampleOut := .neg } : State).sampleOut = .neg := ⟨rfl, rfl⟩

end Sys2Proof.Tests
end

/-!
What one transition does with its input, and the range of the data levels (00_scope.md).
-/
namespace Sys2Proof

/-- OUTPUT_LEVEL is a magnitude: bit 31 is clear (00_scope.md R8). -/
theorem Config.outputLevel_lt_signBit : Config.outputLevel.toNat < 0x80000000 :=
  Nat.lt_of_le_of_lt Config.outputLevel_range.2 (by decide)

/-- The sign bit of a binary32 word, read off the word's number (30_encoding.md R64). -/
theorem signBit_iff (w : Word) : w.getLsbD 31 = true ↔ 0x80000000 ≤ w.toNat := by
  have h : w.getLsbD 31 = decide (2 ^ 31 ≤ w.toNat) :=
    (BitVec.msb_eq_getLsbD_last w).symm.trans (BitVec.msb_eq_decide w)
  rw [h]
  exact decide_eq_true_iff

end Sys2Proof

namespace Sys2Proof.Machine

/-! ### One transition -/

/-- What a step does with a given earliest input: one case for each verdict of the decoder. -/
theorem step_cases_of_input {s : State} {x : Input} {rest : List Input} (hs : s.inputs = x :: rest) :
    (∃ i, decode x = .instr i ∧ step s = exec i { s with inputs := rest })
    ∨ (decode x = .illegalCommand ∧
        step s = .next (State.raiseIllegalCommand { s with inputs := rest }).respondWrite)
    ∨ (decode x = .busError ∧ step s = .next (State.respondBusError { s with inputs := rest }))
    ∨ (decode x = .reset ∧ step s = .next (State.performReset { s with inputs := rest })) := by
  rcases step_cases s with ⟨hnil, -⟩ | ⟨y, tail, hcons, hstep⟩
  · simp [hs] at hnil
  · obtain ⟨rfl, rfl⟩ : x = y ∧ rest = tail := List.cons.inj (hs.symm.trans hcons)
    exact hstep

/-- Settles O7: of the decoder's verdicts on the earliest input only an operation is left. -/
theorem stepRunsTheDecodedInstruction : Obligations.StepRunsTheDecodedInstruction := by
  intro s x rest i hs hd
  rcases step_cases_of_input hs with ⟨j, hj, hstep⟩ | ⟨hj, -⟩ | ⟨hj, -⟩ | ⟨hj, -⟩
  · obtain rfl : i = j := Decoded.instr.inj (hd.symm.trans hj)
    exact hstep
  all_goals exact absurd (hd.symm.trans hj) nofun

/-- Settles O8: a step that takes an input has one left. -/
theorem stepWithoutInputChangesNothing : Obligations.StepWithoutInputChangesNothing := by
  intro s hs
  rcases step_cases s with ⟨-, hstep⟩ | ⟨x, rest, hcons, -⟩
  · exact hstep
  · simp [hs] at hcons

/-! ### The data levels -/

theorem Symbol.level_pos : Symbol.pos.level = Config.outputLevel := rfl

/-- As OUTPUT_LEVEL leaves bit 31 clear, setting it adds its weight (30_encoding.md R64). -/
theorem Symbol.level_neg_toNat :
    Symbol.neg.level.toNat = Config.outputLevel.toNat + 0x80000000 := by
  have hlt : Config.outputLevel.toNat < 2 ^ 31 := Config.outputLevel_lt_signBit
  calc Symbol.neg.level.toNat
      = Config.outputLevel.toNat ||| 2 ^ 31 := BitVec.toNat_or ..
    _ = 2 ^ 31 * 1 + Config.outputLevel.toNat := by
      rw [Nat.two_pow_add_eq_or_of_lt hlt, Nat.mul_one, Nat.or_comm]
    _ = Config.outputLevel.toNat + 0x80000000 := Nat.add_comm ..

/-- Settles O47: without its sign bit either level is OUTPUT_LEVEL, and only NEG has the sign bit. -/
theorem dataLevelsLieInTheStatedRange : Obligations.DataLevelsLieInTheStatedRange := by
  intro s hs
  have hlt := Config.outputLevel_lt_signBit
  have hmag : Config.outputLevel.toNat % 0x80000000 = Config.outputLevel.toNat :=
    Nat.mod_eq_of_lt hlt
  obtain ⟨hlo, hhi⟩ := Config.outputLevel_range
  rw [signBit_iff, State.sampleL]
  rcases hs with hpos | hneg
  · rw [hpos, Symbol.level_pos, hmag]
    exact ⟨hlo, hhi, fun h => absurd hlt (Nat.not_lt.2 h), nofun⟩
  · rw [hneg, Symbol.level_neg_toNat, Nat.add_mod_right, hmag]
    exact ⟨hlo, hhi, fun _ => rfl, fun _ => Nat.le_add_left ..⟩

end Sys2Proof.Machine

/-!
What a transition of the block can do, as a relation, and what every transition keeps (10_state.md).
-/
namespace Sys2Proof.Machine

/-! ### Transitions as a relation -/

/-- `Transition s d t`: the decoder's verdict d takes s to t. One constructor for each way a verdict
has a next state; `transition_of_step` ties the relation to `step`. -/
inductive Transition (s : State) : Decoded → State → Prop where
  | nop : Transition s (.instr .nop) s.respondWrite
  | illegal {d : Decoded} (hd : d = .illegalCommand ∨ (d = .instr .build ∧ s.ctrl = .playing)
      ∨ (d = .instr .start ∧ s.ctrl ≠ .ready)) : Transition s d s.raiseIllegalCommand.respondWrite
  | failBuild {code : ErrorCode} (hp : s.ctrl ≠ .playing)
      (hcode : buildErrorAt Config.fileSizeLimit s = some code) :
      Transition s (.instr .build) (s.failBuild code).respondWrite
  | installFrame {p : List Byte} (hp : s.ctrl ≠ .playing)
      (hv : BuildValid Config.fileSizeLimit s) (hh : HoldsPayload s p) :
      Transition s (.instr .build) (s.installFrame (s.frameOf p)).respondWrite
  | start (hr : s.ctrl = .ready) : Transition s (.instr .start) (State.respondWrite
      { s with ctrl := .playing, cursor := ⟨0, 7, true, s.halfBit - 1, false⟩ })
  | stop : Transition s (.instr .stop) s.release.respondWrite
  | play (hp : s.ctrl = .playing) : Transition s (.instr .tick)
      (s.emit (polarity s.currentBit s.cursor.phase)).advanceCursor
  | silence (hp : s.ctrl ≠ .playing) : Transition s (.instr .tick) (s.emit .zero)
  | regWrite (r : ParamReg) (w : Word) :
      Transition s (.instr (.regWrite r w)) (writeRegister s w r).respondWrite
  | regRead (r : ReadReg) : Transition s (.instr (.regRead r))
      (s.respondRead (readRegisterAt Config.fileSizeLimit s r))
  | srcWrite {i : Nat} (b : Byte) (hi : i < Config.fileSizeLimit) :
      Transition s (.instr (.srcWrite i b))
        (State.respondWrite { s with src := Memory.write s.src i b })
  | srcRead {i : Nat} {b : Byte} (hi : i < Config.fileSizeLimit) (hb : Memory.read s.src i = some b) :
      Transition s (.instr (.srcRead i)) (s.respondRead (b.setWidth 32))
  | frameRead {i : Nat} (hi : i < Config.frameCapacity Config.fileSizeLimit) :
      Transition s (.instr (.frameRead i)) (s.respondRead
        (if i < s.frameLen.toNat then (s.frameByte i).setWidth 32 else 0))
  | busError {d : Decoded} (hd : d = .busError
      ∨ (∃ i, Config.fileSizeLimit ≤ i ∧ ((∃ b, d = .instr (.srcWrite i b)) ∨ d = .instr (.srcRead i)))
      ∨ ∃ i, Config.frameCapacity Config.fileSizeLimit ≤ i ∧ d = .instr (.frameRead i)) :
      Transition s d s.respondBusError
  | reset : Transition s .reset s.performReset

/-- Every next state of BUILD is reached by a transition. -/
theorem transition_of_build {s t : State} (h : exec .build s = .next t) :
    Transition s (.instr .build) t := by
  rw [exec_build] at h
  rcases buildAt_cases Config.fileSizeLimit s with
    ⟨hp, hb⟩ | ⟨hp, -, code, hcode, hb⟩ | ⟨-, -, -, hb⟩ | ⟨hp, hv, p, hh, hb⟩ <;>
    rw [hb] at h <;> cases h
  · exact .illegal (.inr (.inl ⟨rfl, hp⟩))
  · exact .failBuild hp hcode
  · exact .installFrame hp hv hh

/-- Every next state of START is reached by a transition. -/
theorem transition_of_start {s t : State} (h : exec .start s = .next t) :
    Transition s (.instr .start) t := by
  rw [exec_start, execStart] at h
  split at h <;> cases h
  · exact .start ‹_›
  · exact .illegal (.inr (.inr ⟨rfl, ‹_›⟩))

/-- Every next state of TICK is reached by a transition. -/
theorem transition_of_tick {s t : State} (h : exec .tick s = .next t) :
    Transition s (.instr .tick) t := by
  rw [exec_tick, execTick] at h
  split at h <;> cases h
  · exact .play ‹_›
  · exact .silence ‹_›

/-- Every next state of SRC_WRITE is reached by a transition. -/
theorem transition_of_srcWrite {s t : State} {i : Nat} {b : Byte}
    (h : exec (.srcWrite i b) s = .next t) : Transition s (.instr (.srcWrite i b)) t := by
  rw [exec_srcWrite] at h
  rcases srcWriteAt_cases Config.fileSizeLimit i b s with ⟨hi, hw⟩ | ⟨hi, hw⟩ <;>
    rw [hw] at h <;> cases h
  · exact .srcWrite b hi
  · exact .busError (.inr (.inl ⟨i, hi, .inl ⟨b, rfl⟩⟩))

/-- Every next state of SRC_READ is reached by a transition. -/
theorem transition_of_srcRead {s t : State} {i : Nat} (h : exec (.srcRead i) s = .next t) :
    Transition s (.instr (.srcRead i)) t := by
  rw [exec_srcRead] at h
  rcases srcReadAt_cases Config.fileSizeLimit i s with ⟨hi, b, hb, hr⟩ | ⟨-, -, hr⟩ | ⟨hi, hr⟩ <;>
    rw [hr] at h <;> cases h
  · exact .srcRead hi hb
  · exact .busError (.inr (.inl ⟨i, hi, .inr rfl⟩))

/-- Every next state of FRAME_READ is reached by a transition. -/
theorem transition_of_frameRead {s t : State} {i : Nat} (h : exec (.frameRead i) s = .next t) :
    Transition s (.instr (.frameRead i)) t := by
  rw [exec_frameRead] at h
  rcases frameReadAt_cases Config.fileSizeLimit_pos i s with ⟨hi, hr⟩ | ⟨hi, hr⟩ <;>
    rw [hr] at h <;> cases h
  · exact .frameRead hi
  · exact .busError (.inr (.inr ⟨i, hi, rfl⟩))

/-- Every next state of an operation is reached by a transition. -/
theorem transition_of_exec {i : Instr} {s t : State} (h : exec i s = .next t) :
    Transition s (.instr i) t := by
  cases i with
  | nop => cases h; exact .nop
  | build => exact transition_of_build h
  | start => exact transition_of_start h
  | stop => cases h; exact .stop
  | tick => exact transition_of_tick h
  | regWrite r w => cases h; exact .regWrite r w
  | regRead r => cases h; exact .regRead r
  | srcWrite i b => exact transition_of_srcWrite h
  | srcRead i => exact transition_of_srcRead h
  | frameRead i => exact transition_of_frameRead h

/-- Every next state of a step that takes an input is reached by a transition. -/
theorem transition_of_step {s t : State} {x : Input} {rest : List Input} (hs : s.inputs = x :: rest)
    (h : step s = .next t) : Transition { s with inputs := rest } (decode x) t := by
  rcases step_cases_of_input hs with ⟨i, hd, hstep⟩ | ⟨hd, hstep⟩ | ⟨hd, hstep⟩ | ⟨hd, hstep⟩ <;>
    rw [hstep] at h <;> rw [hd]
  · exact transition_of_exec h
  · cases h; exact .illegal (.inl rfl)
  · cases h; exact .busError (.inl rfl)
  · cases h; exact .reset

/-! ### The invariant, one controller state at a time -/

@[simp] theorem Cursor.idle_done : Cursor.idle.done = false := rfl

/-- In IDLE and ERROR the cursor invariant says that there is no frame (10_state.md R32). -/
theorem cursorInv_iff_of_idle_or_error {limit : Nat} {s : State}
    (hc : s.ctrl = .idle ∨ s.ctrl = .error) : CursorInv limit s ↔
      s.frameLen = 0 ∧ s.halfBit = 0 ∧ s.cursor = Cursor.idle := by
  refine ⟨fun ⟨hnone, _⟩ => hnone hc, fun h => ?_⟩
  rcases hc with hc | hc <;> simp [CursorInv, hc, h]

/-- The cursor invariant in READY (10_state.md R32). -/
theorem cursorInv_iff_of_ready {limit : Nat} {s : State} (hc : s.ctrl = .ready) :
    CursorInv limit s ↔ HasFrame limit s ∧ s.cursor = Cursor.idle := by
  refine ⟨fun ⟨_, hready, _⟩ => hready hc, fun h => ?_⟩
  simp [CursorInv, hc, h]

/-- The cursor invariant in PLAYING (10_state.md R32). -/
theorem cursorInv_iff_of_playing {limit : Nat} {s : State} (hc : s.ctrl = .playing) :
    CursorInv limit s ↔ HasFrame limit s ∧ s.cursor.done = false
      ∧ s.cursor.bytePos.toNat < s.frameLen.toNat ∧ s.cursor.hbCnt.toNat ≤ s.halfBit.toNat - 1 := by
  refine ⟨fun ⟨_, _, hplaying, _⟩ => hplaying hc, fun h => ?_⟩
  simp [CursorInv, hc, h]

/-- The cursor invariant in FINISHED (10_state.md R32). -/
theorem cursorInv_iff_of_finished {limit : Nat} {s : State} (hc : s.ctrl = .finished) :
    CursorInv limit s ↔ HasFrame limit s ∧ s.cursor.done = true ∧ s.cursor.bytePos = s.frameLen
      ∧ s.cursor.bitPos = 7 ∧ s.cursor.phase = true
      ∧ s.cursor.hbCnt.toNat = s.halfBit.toNat - 1 := by
  refine ⟨fun ⟨_, _, _, hfinished, _⟩ => hfinished hc, fun h => ?_⟩
  simp [CursorInv, hc, h]

/-- Between two states outside ERROR, what ERR_CODE can hold does not depend on STATE. -/
theorem ErrorInv.of_ne_error {s t : State} (h : ErrorInv s) (hs : s.ctrl ≠ .error)
    (ht : t.ctrl ≠ .error) (hcode : t.errCode = s.errCode) (hill : t.ill = s.ill) : ErrorInv t := by
  obtain ⟨-, helse, hmark⟩ := h
  refine ⟨fun he => absurd he ht, fun _ => ?_, ?_⟩
  · rw [hcode]; exact helse hs
  · rw [hcode, hill]; exact hmark

/-! ### What the named updates keep -/

/-- Settles O42: after reset the block is in IDLE, holds no frame and no error, and lists no byte. -/
theorem resetMeetsTheInvariant : Obligations.ResetMeetsTheInvariant :=
  ⟨(cursorInv_iff_of_idle_or_error (.inl rfl)).2 ⟨rfl, rfl, rfl⟩, ⟨nofun, fun _ => .inl rfl, nofun⟩,
    rfl, rfl, rfl, rfl⟩

theorem BlockInv.writeRegister {s : State} (h : BlockInv s) (w : Word) (r : ParamReg) :
    BlockInv (writeRegister s w r) := by
  cases r <;> exact h

theorem BlockInv.raiseIllegalCommand {s : State} (h : BlockInv s) :
    BlockInv s.raiseIllegalCommand := by
  obtain ⟨hcursor, -, hmem⟩ := h
  exact ⟨hcursor, ⟨fun _ => ⟨nofun, nofun, nofun⟩, fun _ => .inr rfl, fun _ => rfl⟩, hmem⟩

theorem BlockInv.release {s : State} (h : BlockInv s) : BlockInv s.release := by
  obtain ⟨-, -, hmem⟩ := h
  exact ⟨(cursorInv_iff_of_idle_or_error (.inl rfl)).2 ⟨rfl, rfl, rfl⟩,
    ⟨nofun, fun _ => .inl rfl, nofun⟩, hmem⟩

/-- A failing BUILD reports a code that ERROR admits and that is not IllegalCommand's. -/
theorem BlockInv.failBuild {s : State} {limit : Nat} {code : ErrorCode} (h : BlockInv s)
    (hcode : buildErrorAt limit s = some code) : BlockInv (s.failBuild code) := by
  obtain ⟨-, -, hmem⟩ := h
  refine ⟨(cursorInv_iff_of_idle_or_error (.inr rfl)).2 ⟨rfl, rfl, rfl⟩, ?_, hmem⟩
  rcases buildErrorAt_codes hcode with rfl | rfl | rfl | rfl <;> simp [ErrorInv]

/-- The frame of a valid BUILD is in range and all of its bytes are written (40_frame_builder.md R83,
R84). -/
theorem hasFrame_installFrame {s : State} {p : List Byte} (hv : BuildValid Config.fileSizeLimit s)
    (hh : HoldsPayload s p) : HasFrame Config.fileSizeLimit (s.installFrame (s.frameOf p)) := by
  obtain ⟨hpos, hle, -, hbaud, hbaudMax⟩ := hv
  obtain ⟨hlen, -⟩ := hh
  obtain ⟨hmin, hmax⟩ := s.frameOf_length (hlen ▸ hpos) (hlen ▸ hle)
  have hlimit := Config.fileSizeLimit_le
  have hframeLen : (s.installFrame (s.frameOf p)).frameLen.toNat = (s.frameOf p).length := by
    rw [State.installFrame_frameLen, BitVec.toNat_ofNat, Nat.mod_eq_of_lt (by omega)]
  have hhalf : (s.installFrame (s.frameOf p)).halfBit.toNat = 48000 / (2 * s.baud.toNat) :=
    halfBitOf_toNat hbaud
  refine ⟨by omega, by omega, ?_, ?_, fun i hi => ?_⟩
  · rw [hhalf]; exact (Nat.le_div_iff_mul_le (by omega)).2 (by omega)
  · rw [hhalf]; exact Nat.div_le_div_left (c := 2) (by omega) (by omega)
  · rw [hframeLen] at hi
    rw [State.installFrame_frame, Memory.read_writeFrom, if_pos (by omega)]
    simpa using hi

theorem BlockInv.installFrame {s : State} {p : List Byte} (h : BlockInv s)
    (hv : BuildValid Config.fileSizeLimit s) (hh : HoldsPayload s p) :
    BlockInv (s.installFrame (s.frameOf p)) := by
  have hnew := hasFrame_installFrame hv hh
  obtain ⟨-, -, hsrc, hsrcBelow, hframe, hframeBelow⟩ := h
  obtain ⟨hpos, hle, -⟩ := hv
  obtain ⟨hlen, -⟩ := hh
  obtain ⟨-, hmax⟩ := s.frameOf_length (hlen ▸ hpos) (hlen ▸ hle)
  refine ⟨(cursorInv_iff_of_ready rfl).2 ⟨hnew, rfl⟩,
    ⟨nofun, fun _ => .inl rfl, nofun⟩, hsrc, hsrcBelow, Memory.wf_writeFrom hframe 0 _,
    Memory.below_writeFrom hframeBelow ?_⟩
  rw [Nat.zero_add]; exact hmax

theorem BlockInv.writeSrc {s : State} {i : Nat} (h : BlockInv s) (hi : i < Config.fileSizeLimit)
    (b : Byte) : BlockInv { s with src := Memory.write s.src i b } := by
  obtain ⟨hcursor, herror, hsrc, hsrcBelow, hframe⟩ := h
  exact ⟨hcursor, herror, Memory.wf_write hsrc i b, Memory.below_write hsrcBelow hi b, hframe⟩

/-! ### What playback keeps -/

/-- HB_CNT's reload value does not wrap where there is a frame (41_sample_generator.md R94). -/
theorem HasFrame.reload_toNat {limit : Nat} {s : State} (h : HasFrame limit s) :
    (s.halfBit - 1).toNat = s.halfBit.toNat - 1 := by
  obtain ⟨-, -, hpos, -⟩ := h
  bv_omega

theorem HasFrame.frameLen_pos {limit : Nat} {s : State} (h : HasFrame limit s) :
    0 < s.frameLen.toNat := by
  obtain ⟨hlen, -⟩ := h
  omega

/-- START leads from READY into PLAYING (41_sample_generator.md R89). -/
theorem BlockInv.start {s : State} (h : BlockInv s) (hr : s.ctrl = .ready) :
    BlockInv { s with ctrl := .playing, cursor := ⟨0, 7, true, s.halfBit - 1, false⟩ } := by
  obtain ⟨hcursor, herror, hmem⟩ := h
  obtain ⟨hframe, -⟩ := (cursorInv_iff_of_ready hr).1 hcursor
  have hlen : 0 < s.frameLen.toNat := hframe.frameLen_pos
  exact ⟨(cursorInv_iff_of_playing rfl).2 ⟨hframe, rfl, hlen, hframe.reload_toNat.le⟩,
    herror.of_ne_error (by simp [hr]) nofun rfl rfl, hmem⟩

/-- Completing a bit leads to the next bit, the next byte or the end of the frame, all of which meet
the cursor invariant when the counter has just been reloaded (41_sample_generator.md R95, R96). -/
theorem CursorInv.completeBit {limit : Nat} {s : State} (h : CursorInv limit s)
    (hp : s.ctrl = .playing) (hphase : s.cursor.phase = true) (hcnt : s.cursor.hbCnt = s.halfBit - 1) :
    CursorInv limit s.completeBit := by
  obtain ⟨hframe, hdone, hbyte, hle⟩ := (cursorInv_iff_of_playing hp).1 h
  rcases s.completeBit_cases with ⟨-, heq⟩ | ⟨-, hmore, heq⟩ | ⟨-, hlast, heq⟩ <;> rw [heq]
  · exact Iff.mpr (cursorInv_iff_of_playing hp) ⟨hframe, hdone, hbyte, hle⟩
  · have hnext : (s.cursor.bytePos + 1).toNat < s.frameLen.toNat := by bv_omega
    exact Iff.mpr (cursorInv_iff_of_playing hp) ⟨hframe, hdone, hnext, hle⟩
  · have hreload : s.cursor.hbCnt.toNat = s.halfBit.toNat - 1 := hcnt ▸ hframe.reload_toNat
    exact (cursorInv_iff_of_finished rfl).2 ⟨hframe, rfl, hlast, rfl, hphase, hreload⟩

/-- The cursor's advance in PLAYING keeps the cursor invariant (41_sample_generator.md R94 to R96). -/
theorem CursorInv.advanceCursor {limit : Nat} {s : State} (h : CursorInv limit s)
    (hp : s.ctrl = .playing) : CursorInv limit s.advanceCursor := by
  obtain ⟨hframe, hdone, hbyte, hle⟩ := (cursorInv_iff_of_playing hp).1 h
  rcases s.advanceCursor_cases with ⟨hcnt, heq⟩ | ⟨-, -, heq⟩ | ⟨-, -, heq⟩ <;> rw [heq]
  · have hdown : (s.cursor.hbCnt - 1).toNat ≤ s.halfBit.toNat - 1 := by bv_omega
    exact Iff.mpr (cursorInv_iff_of_playing hp) ⟨hframe, hdone, hbyte, hdown⟩
  · exact Iff.mpr (cursorInv_iff_of_playing hp) ⟨hframe, hdone, hbyte, hframe.reload_toNat.le⟩
  · have hreloaded : CursorInv limit
        { s with cursor := { s.cursor with hbCnt := s.halfBit - 1, phase := true } } :=
      Iff.mpr (cursorInv_iff_of_playing hp) ⟨hframe, hdone, hbyte, hframe.reload_toNat.le⟩
    exact hreloaded.completeBit hp rfl rfl

/-- Completing a bit writes STATE and the cursor only, and STATE with FINISHED only. -/
theorem State.completeBit_frame (s : State) :
    s.completeBit = { s with ctrl := s.completeBit.ctrl, cursor := s.completeBit.cursor }
    ∧ (s.completeBit.ctrl = s.ctrl ∨ s.completeBit.ctrl = .finished) := by
  rcases s.completeBit_cases with ⟨-, heq⟩ | ⟨-, -, heq⟩ | ⟨-, -, heq⟩ <;> rw [heq]
  · exact ⟨rfl, .inl rfl⟩
  · exact ⟨rfl, .inl rfl⟩
  · exact ⟨rfl, .inr rfl⟩

/-- The cursor's advance writes STATE and the cursor only, and STATE with FINISHED only. -/
theorem State.advanceCursor_frame (s : State) :
    s.advanceCursor = { s with ctrl := s.advanceCursor.ctrl, cursor := s.advanceCursor.cursor }
    ∧ (s.advanceCursor.ctrl = s.ctrl ∨ s.advanceCursor.ctrl = .finished) := by
  rcases s.advanceCursor_cases with ⟨-, heq⟩ | ⟨-, -, heq⟩ | ⟨-, -, heq⟩ <;> rw [heq]
  · exact ⟨rfl, .inl rfl⟩
  · exact ⟨rfl, .inl rfl⟩
  · exact State.completeBit_frame
      { s with cursor := { s.cursor with hbCnt := s.halfBit - 1, phase := true } }

theorem BlockInv.advanceCursor {s : State} (h : BlockInv s) (hp : s.ctrl = .playing) :
    BlockInv s.advanceCursor := by
  obtain ⟨hcursor, herror, hmem⟩ := h
  obtain ⟨heq, hctrl⟩ := s.advanceCursor_frame
  have hne : s.advanceCursor.ctrl ≠ .error := by
    rcases hctrl with hc | hc <;> simp [hc, hp]
  refine ⟨hcursor.advanceCursor hp, ?_, ?_⟩
  · exact herror.of_ne_error (by simp [hp]) hne (by rw [heq]) (by rw [heq])
  · rw [heq]; exact hmem

/-! ### The whole block -/

/-- A transition keeps the invariant. A bus response writes no field that the invariant reads. -/
theorem Transition.keeps_blockInv {s t : State} {d : Decoded} (h : Transition s d t)
    (hinv : BlockInv s) : BlockInv t := by
  cases h with
  | nop | regRead | srcRead | frameRead | busError | silence => exact hinv
  | illegal => exact hinv.raiseIllegalCommand
  | failBuild _ hcode => exact hinv.failBuild hcode
  | installFrame _ hv hh => exact hinv.installFrame hv hh
  | start hr => exact hinv.start hr
  | stop => exact hinv.release
  | play hp =>
    have hemit : BlockInv (s.emit (polarity s.currentBit s.cursor.phase)) := hinv
    exact hemit.advanceCursor hp
  | regWrite r w => exact hinv.writeRegister w r
  | srcWrite b hi => exact hinv.writeSrc hi b
  | reset => exact resetMeetsTheInvariant

/-- Settles O41: a step is a transition, or nothing when no input is left. -/
theorem stepKeepsTheInvariant : Obligations.StepKeepsTheInvariant := by
  intro s t hinv hstep
  cases hs : s.inputs with
  | nil =>
    cases (stepWithoutInputChangesNothing s hs).symm.trans hstep
    exact hinv
  | cons x rest =>
    have hrest : BlockInv { s with inputs := rest } := hinv
    exact (transition_of_step hs hstep).keeps_blockInv hrest

/-- Settles O46: each transition writes only fields whose rules name its verdict. -/
theorem stateChangesOnlyByItsWriters : Obligations.StateChangesOnlyByItsWriters := by
  intro s t x rest hs hstep hreset
  have h := transition_of_step hs hstep
  generalize decode x = d at h hreset ⊢
  cases h with
  | nop | regRead | srcRead | frameRead | busError => simp +contextual
  | illegal hd => rcases hd with rfl | ⟨rfl, hp⟩ | ⟨rfl, hr⟩ <;> simp_all
  | failBuild hp | installFrame hp => simp_all
  | start hr => simp +contextual
  | stop => simp
  | play hp =>
    rw [(State.advanceCursor_frame _).1]
    simp +contextual
  | silence => simp +contextual
  | regWrite r w =>
    cases r <;> simp +contextual [writeRegister_fmt, writeRegister_baud, writeRegister_loadAddr,
      writeRegister_srcLen]
  | srcWrite => simp +contextual
  | reset => exact absurd rfl hreset

/-- Settles O44: a reset apart, ILL is cleared by STOP only. -/
theorem illStaysSetUntilStopOrReset : Obligations.IllStaysSetUntilStopOrReset := by
  intro s t x rest hs hstep hset hclear
  by_cases hreset : decode x = .reset
  · exact .inr hreset
  · obtain ⟨-, -, -, -, hill, -⟩ := stateChangesOnlyByItsWriters s t x rest hs hstep hreset
    exact .inl (hill hset hclear)

end Sys2Proof.Machine

/-!
What a host transaction decodes to: the data lines it uses, its encoding, and whether the table of
20_memory.md R40 admits it.
-/
namespace Sys2Proof

/-! ### The data lines a transaction uses -/

/-- The data lines that a transaction uses, the others 0: none of a read, wdata[7:0] of an 8-bit
write, all of a 32-bit write (20_memory.md R39). -/
def Request.usedData (r : Request) : Word :=
  match r.kind, r.width with
  | .read, _ => 0
  | .write, .w8 => (r.wdata.extractLsb' 0 8).setWidth 32
  | .write, .w32 => r.wdata

/-- The transaction with its unused data lines at 0. -/
def Request.clearUnused (r : Request) : Request := { r with wdata := r.usedData }

theorem Request.clearUnused_read (width : AccessWidth) (a : HostAddr) (w : Word) :
    Request.clearUnused ⟨.read, width, a, w⟩ = ⟨.read, width, a, 0⟩ := rfl

theorem Request.clearUnused_write8 (a : HostAddr) (w : Word) :
    Request.clearUnused ⟨.write, .w8, a, w⟩ = ⟨.write, .w8, a, (w.extractLsb' 0 8).setWidth 32⟩ := rfl

theorem Request.clearUnused_write32 (a : HostAddr) (w : Word) :
    Request.clearUnused ⟨.write, .w32, a, w⟩ = ⟨.write, .w32, a, w⟩ := rfl

theorem extractLsb'_byte_toNat (w : Word) : (w.extractLsb' 0 8).toNat = w.toNat % 256 := by
  rw [BitVec.extractLsb'_toNat, Nat.shiftRight_zero]

theorem Request.usedData_of_write32 {r : Request} (hk : r.kind = .write) (hw : r.width = .w32) :
    r.usedData = r.wdata := by
  simp only [usedData, hk, hw]

theorem Request.usedData_toNat_of_write8 {r : Request} (hk : r.kind = .write) (hw : r.width = .w8) :
    r.usedData.toNat = r.wdata.toNat % 256 := by
  have hbyte := extractLsb'_byte_toNat r.wdata
  simp only [usedData, hk, hw, BitVec.toNat_setWidth]
  omega

theorem decodeRegister_clearUnused (r : Request) : decodeRegister r.clearUnused = decodeRegister r := by
  obtain ⟨kind, width, a, w⟩ := r
  cases width with
  | w8 => rfl
  | w32 => cases kind <;> rfl

theorem decodeSrc_clearUnused (r : Request) (i : Nat) : decodeSrc r.clearUnused i = decodeSrc r i := by
  obtain ⟨kind, width, a, w⟩ := r
  cases width with
  | w32 => rfl
  | w8 =>
    cases kind with
    | read => rfl
    | write => simp only [Request.clearUnused_write8, decodeSrc, extractLsb'_setWidth_byte]

theorem decodeFrame_clearUnused (r : Request) (i : Nat) :
    decodeFrame r.clearUnused i = decodeFrame r i := rfl

/-- No decoder of a region looks at an unused data line. -/
theorem decode_clearUnused (r : Request) : decode (.bus r.clearUnused) = decode (.bus r) := by
  simp only [decode, decodeAt, decodeRequestAt, decodeRegister_clearUnused, decodeSrc_clearUnused,
    decodeFrame_clearUnused]
  rfl

theorem decode_eq_of_clearUnused_eq {r r' : Request} (h : r.clearUnused = r'.clearUnused) :
    decode (.bus r) = decode (.bus r') := by
  rw [← decode_clearUnused r, h, decode_clearUnused]

/-- Settles O6: the transactions differ in unused data lines only. -/
theorem unusedDataLinesAreIgnored : Obligations.UnusedDataLinesAreIgnored := by
  refine ⟨fun width a w w' => decode_eq_of_clearUnused_eq rfl, fun a w w' h => ?_⟩
  have hbyte : w.extractLsb' 0 8 = w'.extractLsb' 0 8 :=
    BitVec.eq_of_toNat_eq (by rw [extractLsb'_byte_toNat, extractLsb'_byte_toNat, h])
  apply decode_eq_of_clearUnused_eq
  rw [Request.clearUnused_write8, Request.clearUnused_write8, hbyte]

/-! ### The encoding of what a transaction decodes to -/

/-- A CTRL word that decodes to a command is that command's encoding (30_encoding.md R55). -/
theorem encode_of_decodeCommand {w : Word} {i : Instr} (h : decodeCommand w = .instr i) :
    i.WellFormed ∧ encode i = ctrlWrite w := by
  rcases decodeCommand_cases w with ⟨rfl, hc⟩ | ⟨rfl, hc⟩ | ⟨rfl, hc⟩ | ⟨rfl, hc⟩ | ⟨-, -, -, -, hc⟩ <;>
    cases hc.symm.trans h <;> exact ⟨rfl, rfl⟩

theorem encode_of_decodeRegister {r : Request} {i : Instr} (h : decodeRegister r = .instr i) :
    i.WellFormed ∧ encode i = .bus r.clearUnused := by
  obtain ⟨kind, width, a, w⟩ := r
  cases width with
  | w8 => cases h
  | w32 =>
    cases kind with
    | read =>
      simp only [decodeRegister] at h
      split at h
      next q hq =>
        cases h
        exact ⟨rfl, by rw [encode, offset_of_readRegAt hq, Request.clearUnused_read]⟩
      next => cases h
    | write =>
      simp only [decodeRegister] at h
      split at h
      next hctrl =>
        subst hctrl
        exact encode_of_decodeCommand h
      next =>
        split at h
        next p hp =>
          cases h
          exact ⟨rfl, by rw [encode, offset_of_paramRegAt hp, Request.clearUnused_write32]⟩
        next => cases h

/-- The address lines of a transaction are what its byte address encodes to. -/
theorem ofNat_eq_addr {r : Request} {n : Nat} (h : r.addr.toNat = n) : BitVec.ofNat 20 n = r.addr := by
  rw [← h, BitVec.ofNat_toNat, BitVec.setWidth_eq]

theorem encode_of_decodeSrc {r : Request} {k : Nat} {i : Instr} (hk : k < Config.fileSizeLimit)
    (ha : r.addr.toNat = srcBase + k) (h : decodeSrc r k = .instr i) :
    i.WellFormed ∧ encode i = .bus r.clearUnused := by
  have haddr := ofNat_eq_addr ha
  obtain ⟨kind, width, a, w⟩ := r
  cases width with
  | w32 => cases h
  | w8 =>
    cases kind with
    | read =>
      cases h
      exact ⟨(srcRead_wellFormed_iff k).2 hk, by rw [encode, haddr, Request.clearUnused_read]⟩
    | write =>
      cases h
      exact ⟨(srcWrite_wellFormed_iff k _).2 hk, by rw [encode, haddr, Request.clearUnused_write8]⟩

theorem encode_of_decodeFrame {r : Request} {k : Nat} {i : Instr}
    (hk : k < Config.frameCapacity Config.fileSizeLimit) (ha : r.addr.toNat = frameBase + k)
    (h : decodeFrame r k = .instr i) : i.WellFormed ∧ encode i = .bus r.clearUnused := by
  have haddr := ofNat_eq_addr ha
  obtain ⟨kind, width, a, w⟩ := r
  cases width with
  | w32 => cases h
  | w8 =>
    cases kind with
    | write => cases h
    | read =>
      cases h
      exact ⟨(frameRead_wellFormed_iff k).2 hk, by rw [encode, haddr, Request.clearUnused_read]⟩

/-- What a transaction decodes to encodes back to that transaction, its unused data lines cleared. -/
theorem encode_of_decode {r : Request} {i : Instr} (h : decode (.bus r) = .instr i) :
    i.WellFormed ∧ encode i = .bus r.clearUnused := by
  rw [decode, decodeAt] at h
  rcases decodeRequestAt_cases Config.fileSizeLimit_pos Config.fileSizeLimit_le r with
    ⟨-, hr⟩ | ⟨k, hk, ha, -, hr⟩ | ⟨k, hk, ha, hr⟩ | ⟨-, -, -, hr⟩ <;> rw [hr] at h
  · exact encode_of_decodeRegister h
  · exact encode_of_decodeSrc hk ha h
  · exact encode_of_decodeFrame hk ha h
  · cases h

/-- Settles O2: clearing the unused data lines keeps everything the statement speaks of. -/
theorem decodedTransactionsAreTheirEncodings : Obligations.DecodedTransactionsAreTheirEncodings := by
  intro r i h
  obtain ⟨hwf, henc⟩ := encode_of_decode h
  exact ⟨hwf, r.clearUnused, henc, rfl, rfl, rfl, Request.usedData_of_write32,
    Request.usedData_toNat_of_write8⟩

/-! ### Which transactions are legal -/

theorem decodeCommand_ne_busError (w : Word) : decodeCommand w ≠ .busError := by
  rcases decodeCommand_cases w with ⟨-, h⟩ | ⟨-, h⟩ | ⟨-, h⟩ | ⟨-, h⟩ | ⟨-, -, -, -, h⟩ <;>
    rw [h] <;> nofun

/-- The first two rows of 20_memory.md R40. -/
theorem decodeRegister_ne_busError_iff (r : Request) : decodeRegister r ≠ .busError ↔
    (r.kind = .read ∧ r.width = .w32 ∧ (readRegAt r.addr).isSome = true)
    ∨ (r.kind = .write ∧ r.width = .w32 ∧
        (r.addr = ctrlOffset ∨ (paramRegAt r.addr).isSome = true)) := by
  obtain ⟨kind, width, a, w⟩ := r
  cases width with
  | w8 => simp [decodeRegister]
  | w32 =>
    cases kind with
    | read => cases hq : readRegAt a <;> simp [decodeRegister, hq]
    | write =>
      by_cases hctrl : a = ctrlOffset
      · simp [decodeRegister, hctrl, decodeCommand_ne_busError]
      · cases hp : paramRegAt a <;> simp [decodeRegister, hctrl, hp]

/-- The third row of 20_memory.md R40. -/
theorem decodeSrc_ne_busError_iff (r : Request) (i : Nat) :
    decodeSrc r i ≠ .busError ↔ r.width = .w8 := by
  obtain ⟨kind, width, a, w⟩ := r
  cases width with
  | w8 => cases kind <;> simp [decodeSrc]
  | w32 => simp [decodeSrc]

/-- The fourth row of 20_memory.md R40. -/
theorem decodeFrame_ne_busError_iff (r : Request) (i : Nat) :
    decodeFrame r i ≠ .busError ↔ r.kind = .read ∧ r.width = .w8 := by
  obtain ⟨kind, width, a, w⟩ := r
  cases width with
  | w8 => cases kind <;> simp [decodeFrame]
  | w32 => simp [decodeFrame]

end Sys2Proof

namespace Sys2Proof.Machine

/-- The addresses of the second row of 20_memory.md R40. -/
theorem ctrl_or_paramRegAt_iff (a : HostAddr) :
    a = ctrlOffset ∨ (paramRegAt a).isSome = true ↔
      a = 0x00 ∨ a = 0x0C ∨ a = 0x10 ∨ a = 0x14 ∨ a = 0x18 := by
  rw [paramRegAt_isSome_iff, ctrlOffset]

/-- Outside the register space no address holds a register. -/
theorem not_writable_of_registerSpaceEnd_le {a : HostAddr} (h : registerSpaceEnd ≤ a.toNat) :
    ¬ (a = 0x00 ∨ a = 0x0C ∨ a = 0x10 ∨ a = 0x14 ∨ a = 0x18) := by
  rintro (rfl | rfl | rfl | rfl | rfl) <;> exact absurd h (by decide)

/-- In the register space a transaction is legal by the first two rows of 20_memory.md R40 only. -/
theorem admitted_iff_of_register {limit : Nat} {r : Request} (h : r.addr.toNat < registerSpaceEnd) :
    Admitted limit r ↔ decodeRegister r ≠ .busError := by
  have hend : registerSpaceEnd = 0x40 := rfl
  have hsrc : ¬ 0x40000 ≤ r.addr.toNat := by omega
  have hframe : ¬ 0x80000 ≤ r.addr.toNat := by omega
  rw [decodeRegister_ne_busError_iff, readRegAt_isSome_iff, ctrl_or_paramRegAt_iff]
  simp only [Admitted, hsrc, hframe, false_and, and_false, or_false]

/-- Outside the register space a transaction is legal by the last two rows of 20_memory.md R40 only. -/
theorem admitted_iff_of_windows {limit : Nat} {r : Request} (h : registerSpaceEnd ≤ r.addr.toNat) :
    Admitted limit r ↔
      (r.width = .w8 ∧ srcBase ≤ r.addr.toNat ∧ r.addr.toNat < srcBase + limit)
      ∨ (r.kind = .read ∧ r.width = .w8 ∧ frameBase ≤ r.addr.toNat
          ∧ r.addr.toNat < frameBase + Config.frameCapacity limit) := by
  have hend : registerSpaceEnd = 0x40 := rfl
  have hread : ¬ r.addr.toNat ≤ 0x34 := by omega
  simp only [Admitted, hread, not_writable_of_registerSpaceEnd_le h, and_false, false_or, srcBase,
    frameBase, Config.frameCapacity]

/-- Each region of 20_memory.md R38 has its rows of R40, and an unmapped address has none. -/
theorem decodeRequestAt_ne_busError_iff {limit : Nat} (hp : 1 ≤ limit) (hl : limit ≤ 65536)
    (r : Request) : decodeRequestAt limit r ≠ .busError ↔ Admitted limit r := by
  have hrs : registerSpaceEnd ≤ srcBase := by decide
  have hsf : srcBase + 65536 < frameBase := by decide
  rcases decodeRequestAt_cases hp hl r with
    ⟨ha, hr⟩ | ⟨i, hi, ha, -, hr⟩ | ⟨i, hi, ha, hr⟩ | ⟨hreg, hsrc, hframe, hr⟩ <;> rw [hr]
  · exact (admitted_iff_of_register ha).symm
  · have hin : srcBase ≤ r.addr.toNat ∧ r.addr.toNat < srcBase + limit := by omega
    have hframe : ¬ frameBase ≤ r.addr.toNat := by omega
    rw [decodeSrc_ne_busError_iff, admitted_iff_of_windows (by omega)]
    simp only [hin, hframe, and_self, and_true, false_and, and_false, or_false]
  · have hin : frameBase ≤ r.addr.toNat ∧ r.addr.toNat < frameBase + Config.frameCapacity limit := by
      omega
    have hsrc : ¬ r.addr.toNat < srcBase + limit := by omega
    rw [decodeFrame_ne_busError_iff, admitted_iff_of_windows (by omega)]
    simp only [hin, hsrc, and_self, and_true, and_false, false_or]
  · rw [admitted_iff_of_windows hreg]
    have hnone : ¬ (srcBase ≤ r.addr.toNat ∧ r.addr.toNat < srcBase + limit)
        ∧ ¬ (frameBase ≤ r.addr.toNat
          ∧ r.addr.toNat < frameBase + Config.frameCapacity limit) := by omega
    simp only [hnone, and_false, or_self, ne_eq, not_true_eq_false]

/-- Settles O5: FILE_SIZE_LIMIT is in the range that keeps the windows apart. -/
theorem transactionsAreLegalExactlyByTheTable : Obligations.TransactionsAreLegalExactlyByTheTable :=
  decodeRequestAt_ne_busError_iff Config.fileSizeLimit_pos Config.fileSizeLimit_le

theorem decode_eq_busError_of_not_admitted {r : Request} (h : ¬ Admitted Config.fileSizeLimit r) :
    decode (.bus r) = .busError :=
  Decidable.not_not.1 (mt (transactionsAreLegalExactlyByTheTable r).1 h)

/-- Settles O9: the decoder answers BUS_ERROR, whose transition writes the response only. -/
theorem illegalTransactionsOnlyAnswerBusError : Obligations.IllegalTransactionsOnlyAnswerBusError := by
  intro s r rest hs hna
  have hd := decode_eq_busError_of_not_admitted hna
  rcases step_cases_of_input hs with ⟨i, hj, -⟩ | ⟨hj, -⟩ | ⟨-, hstep⟩ | ⟨hj, -⟩
  case inr.inr.inl => exact hstep
  all_goals exact absurd (hd.symm.trans hj) nofun

end Sys2Proof.Machine

/-!
What the encoding of an operation decodes to, the IllegalCommand entry, the sample ports, and the
frame that a valid BUILD lays out (30_encoding.md).
-/
namespace Sys2Proof

/-! ### The encoding of each row, decoded -/

/-- A transaction in the register space goes to the register decoder. -/
theorem decode_register (r : Request) (h : r.addr.toNat < registerSpaceEnd) :
    decode (.bus r) = decodeRegister r :=
  decodeRequestAt_register h

/-- A 32-bit CTRL write decodes by the command map (30_encoding.md R54). -/
theorem decode_ctrlWrite (w : Word) : decode (ctrlWrite w) = decodeCommand w :=
  decode_register ⟨.write, .w32, ctrlOffset, w⟩ (show ctrlOffset.toNat < registerSpaceEnd by decide)

/-- REG_WRITE's transaction: its register is in the register space and is not CTRL
(42_control_and_host_bus.md R107). -/
theorem decode_encode_regWrite (r : ParamReg) (w : Word) :
    decode (encode (.regWrite r w)) = .instr (.regWrite r w) := by
  rw [encode, decode_register _ (paramReg_offset_toNat_lt r)]
  simp only [decodeRegister, if_neg (paramReg_offset_ne_ctrl r), paramRegAt_offset]

/-- REG_READ's transaction: its register is in the register space
(42_control_and_host_bus.md R108). -/
theorem decode_encode_regRead (r : ReadReg) : decode (encode (.regRead r)) = .instr (.regRead r) := by
  rw [encode, decode_register _ (readReg_offset_toNat_lt r)]
  simp only [decodeRegister, readRegAt_offset]

/-- A transaction at the address of byte i of the SRC window goes to the SRC decoder. -/
theorem decode_at_srcWindow {i : Nat} (hi : i < Config.fileSizeLimit) (kind : AccessKind)
    (width : AccessWidth) (w : Word) :
    decode (.bus ⟨kind, width, BitVec.ofNat 20 (srcBase + i), w⟩)
      = decodeSrc ⟨kind, width, BitVec.ofNat 20 (srcBase + i), w⟩ i :=
  decodeRequestAt_src hi Config.fileSizeLimit_le (Laws.srcWindow_toNat hi)

/-- A transaction at the address of byte i of the FRAME window goes to the FRAME decoder. -/
theorem decode_at_frameWindow {i : Nat} (hi : i < Config.frameCapacity Config.fileSizeLimit)
    (kind : AccessKind) (width : AccessWidth) (w : Word) :
    decode (.bus ⟨kind, width, BitVec.ofNat 20 (frameBase + i), w⟩)
      = decodeFrame ⟨kind, width, BitVec.ofNat 20 (frameBase + i), w⟩ i :=
  decodeRequestAt_frame Config.fileSizeLimit_pos hi (Laws.frameWindow_toNat hi)

/-- SRC_WRITE's transaction: the byte is read back from the low data lines
(42_control_and_host_bus.md R109). -/
theorem decode_encode_srcWrite {i : Nat} (hi : i < Config.fileSizeLimit) (v : Byte) :
    decode (encode (.srcWrite i v)) = .instr (.srcWrite i v) := by
  rw [encode, decode_at_srcWindow hi]
  simp only [decodeSrc, extractLsb'_setWidth_byte]

/-- Settles O1: each row's transaction goes to the decoder of its region, which reads the operands
back; a window index keeps its value on the address lines because it is well-formed. -/
theorem decodeOfEncodeIsTheInstruction : Obligations.DecodeOfEncodeIsTheInstruction := by
  intro i hwf
  cases i with
  | nop | build | start | stop => exact decode_ctrlWrite _
  | tick => rfl
  | regWrite r w => exact decode_encode_regWrite r w
  | regRead r => exact decode_encode_regRead r
  | srcWrite i v => exact decode_encode_srcWrite ((srcWrite_wellFormed_iff i v).1 hwf) v
  | srcRead i => exact decode_at_srcWindow ((srcRead_wellFormed_iff i).1 hwf) ..
  | frameRead i => exact decode_at_frameWindow ((frameRead_wellFormed_iff i).1 hwf) ..

/-- Settles O3: address 0 is CTRL's, so the command map decides. -/
theorem commandWordsDecodeByTheMap : Obligations.CommandWordsDecodeByTheMap := by
  intro w
  exact decode_ctrlWrite w

/-- Settles O4: each transaction is the encoding of its operation. -/
theorem sampleTransactionsDecode : Obligations.SampleTransactionsDecode := by
  have hlimit := Config.fileSizeLimit_pos
  have hframe : 3 < Config.frameCapacity Config.fileSizeLimit := by
    rw [Config.frameCapacity_eq]; omega
  exact ⟨decodeOfEncodeIsTheInstruction .build rfl,
    decodeOfEncodeIsTheInstruction .tick rfl,
    decodeOfEncodeIsTheInstruction (.regWrite .baud 2400) rfl,
    decodeOfEncodeIsTheInstruction (.regRead .cursorBit) rfl,
    decodeOfEncodeIsTheInstruction (.srcWrite 0 0xE6) ((srcWrite_wellFormed_iff 0 0xE6).2 hlimit),
    decodeOfEncodeIsTheInstruction (.srcRead 0) ((srcRead_wellFormed_iff 0).2 hlimit),
    decodeOfEncodeIsTheInstruction (.frameRead 3) ((frameRead_wellFormed_iff 3).2 hframe)⟩

/-- A CTRL word past the command map is reserved (30_encoding.md R56). -/
theorem decodeCommand_of_reserved {w : Word} (h0 : w ≠ 0) (h1 : w ≠ 1) (h2 : w ≠ 2) (h3 : w ≠ 3) :
    decodeCommand w = .illegalCommand := by
  rw [decodeCommand, if_neg h0, if_neg h1, if_neg h2, if_neg h3]

end Sys2Proof

namespace Sys2Proof.Machine

/-! ### The IllegalCommand entry -/

/-- The transition of a reserved CTRL word (30_encoding.md R56). -/
theorem step_of_illegalCommand {s : State} {x : Input} {rest : List Input} (hs : s.inputs = x :: rest)
    (hd : decode x = .illegalCommand) :
    step s = .next (State.raiseIllegalCommand { s with inputs := rest }).respondWrite := by
  rcases step_cases_of_input hs with ⟨i, hj, -⟩ | ⟨-, hstep⟩ | ⟨hj, -⟩ | ⟨hj, -⟩
  case inr.inl => exact hstep
  all_goals exact absurd (hd.symm.trans hj) nofun

/-- BUILD is illegal in PLAYING (40_frame_builder.md R67). -/
theorem exec_build_playing {s : State} (hp : s.ctrl = .playing) :
    exec .build s = .next s.raiseIllegalCommand.respondWrite := if_pos hp

/-- START is illegal outside READY (41_sample_generator.md R89). -/
theorem exec_start_not_ready {s : State} (hr : s.ctrl ≠ .ready) :
    exec .start s = .next s.raiseIllegalCommand.respondWrite := if_neg hr

/-- Settles O11: all three ways lead to the one IllegalCommand entry, answered OK. -/
theorem illegalCommandsSetOnlyIllAndTheCode : Obligations.IllegalCommandsSetOnlyIllAndTheCode := by
  refine ⟨fun s w rest hs h0 h1 h2 h3 => ?_, fun s hp => ⟨_, _, exec_build_playing hp⟩,
    fun s hr => ⟨_, _, exec_start_not_ready hr⟩⟩
  have hd : decode (ctrlWrite w) = .illegalCommand :=
    (decode_ctrlWrite w).trans (decodeCommand_of_reserved h0 h1 h2 h3)
  exact ⟨_, _, step_of_illegalCommand hs hd⟩

/-! ### The sample ports -/

/-- Code 3 of SAMPLE_OUT.SYM is never produced (30_encoding.md R64). -/
theorem Symbol.code_ne_three (sym : Symbol) : sym.code ≠ 3 := by cases sym <;> decide

/-- Settles O40: the ports are the code and the level of the symbol; NEG's level is OUTPUT_LEVEL with
the weight of bit 31 added. -/
theorem samplePortsFollowTheSymbol : Obligations.SamplePortsFollowTheSymbol := by
  intro s
  rw [State.sampleL, State.sampleR, State.sampleSym]
  refine ⟨rfl, fun hzero => ?_, fun hpos => ?_, fun hneg => ?_, s.sampleOut.code_ne_three⟩
  · rw [hzero]; exact ⟨rfl, rfl⟩
  · rw [hpos]; exact ⟨rfl, Symbol.level_pos⟩
  · rw [hneg]; exact ⟨rfl, Symbol.level_neg_toNat⟩

/-! ### A frame written to FRAME -/

/-- A frame written from address 0 holds each of its parts where the parts before it end. -/
theorem frameHolds_writeFrom_of_append {m : Memory} {f pre part post : List Byte} {base : Nat}
    (hf : f = pre ++ part ++ post) (hbase : pre.length = base) :
    FrameHolds (Memory.writeFrom m 0 f) base part := by
  intro i hi
  have hin : base + i < 0 + f.length := by simp only [hf, List.length_append]; omega
  rw [Memory.read_writeFrom, if_pos ⟨Nat.zero_le _, hin⟩, Nat.sub_zero, hf, ← hbase,
    List.append_assoc, List.getElem?_append_right (Nat.le_add_right ..), Nat.add_sub_cancel_left,
    List.getElem?_append_left hi]

/-- The padding that every frame begins with (40_frame_builder.md R74). -/
def padding : List Byte := List.replicate Config.padLen 0

theorem padding_length : padding.length = 256 := List.length_replicate

/-- Where FRAME begins with the padding, its first 256 bytes are 0. -/
theorem FrameHolds.read_padding {m : Memory} (h : FrameHolds m 0 padding) {k : Nat} (hk : k < 256) :
    Memory.read m k = some 0 := by
  have hread := h k (padding_length ▸ hk)
  rwa [Nat.zero_add, padding, padding_get, if_pos hk] at hread

/-- A frame written from address 0 keeps the bytes past its end (40_frame_builder.md R83). -/
theorem Memory.read_writeFrom_zero_of_length_le {m : Memory} {f : List Byte} {k : Nat}
    (hk : f.length ≤ k) : Memory.read (Memory.writeFrom m 0 f) k = Memory.read m k := by
  rw [Memory.read_writeFrom, if_neg (by omega)]

/-- What a valid BUILD does in either mode: it writes the frame of its payload, latches the length
and the half-bit, enters READY and changes nothing else (40_frame_builder.md R83 to R85). -/
theorem exec_build_latches_frame {s : State} {p : List Byte} (hp : s.ctrl ≠ .playing)
    (hv : BuildValid Config.fileSizeLimit s) (hh : HoldsPayload s p) :
    ∃ t v n, exec .build s = .next t
      ∧ t = { s with frame := t.frame, frameLen := t.frameLen, halfBit := t.halfBit, ctrl := .ready,
                     errCode := .none, cursor := ⟨0, 7, true, 0, false⟩,
                     response := some ⟨.ok, v⟩, freeCount := n }
      ∧ t.halfBit.toNat = 48000 / (2 * s.baud.toNat)
      ∧ t.frameLen.toNat = (s.frameOf p).length
      ∧ t.frame = Memory.writeFrom s.frame 0 (s.frameOf p) := by
  refine ⟨_, _, _, exec_build_valid hp hv hh, rfl, ?_, ?_, rfl⟩
  · obtain ⟨-, -, -, hbaud, -⟩ := hv
    exact halfBitOf_toNat hbaud
  · obtain ⟨hpos, hle, -⟩ := hv
    obtain ⟨hlen, -⟩ := hh
    obtain ⟨-, hmax⟩ := s.frameOf_length (hlen ▸ hpos) (hlen ▸ hle)
    have hlimit := Config.fileSizeLimit_le
    rw [State.respondWrite_frameLen, State.installFrame_frameLen, BitVec.toNat_ofNat,
      Nat.mod_eq_of_lt (by omega)]

/-! ### The TapeImage frame -/

theorem State.frameOf_tapeImage {s : State} (h : s.fmt = .tapeImage) (p : List Byte) :
    s.frameOf p = tapeImageFrame p := by
  simp only [State.frameOf, h]

/-- The sync byte that a TapeImage BUILD adds unless the payload begins with one
(40_frame_builder.md R75). -/
def addedSync (p : List Byte) : List Byte := if p[0]? = some 0xE6 then [] else [0xE6]

theorem addedSync_length (p : List Byte) :
    (addedSync p).length = if p[0]? = some 0xE6 then 0 else 1 := by
  rw [addedSync, apply_ite List.length]; rfl

/-- A sync byte that is added is SYNC. -/
theorem addedSync_eq_of_length {p : List Byte} (h : (addedSync p).length = 1) :
    addedSync p = [0xE6] := by
  rw [addedSync] at h ⊢
  split at h
  · cases h
  · exact if_neg ‹_›

/-- The parts of a TapeImage frame (30_encoding.md R59). -/
theorem tapeImageFrame_eq (p : List Byte) : tapeImageFrame p = padding ++ addedSync p ++ p := by
  rw [tapeImageFrame, List.head?_eq_getElem?]; rfl

/-- FRAME after a TapeImage frame is written to it: padding, added sync byte and payload, in order
(40_frame_builder.md R74 to R76). -/
theorem frameHolds_tapeImageFrame (m : Memory) (p : List Byte) :
    FrameHolds (Memory.writeFrom m 0 (tapeImageFrame p)) 0 padding
    ∧ FrameHolds (Memory.writeFrom m 0 (tapeImageFrame p)) 256 (addedSync p)
    ∧ FrameHolds (Memory.writeFrom m 0 (tapeImageFrame p)) (256 + (addedSync p).length) p := by
  have hf := tapeImageFrame_eq p
  refine ⟨frameHolds_writeFrom_of_append (pre := []) (hf.trans (List.append_assoc ..)) rfl,
    frameHolds_writeFrom_of_append hf padding_length,
    frameHolds_writeFrom_of_append (post := []) (hf.trans (List.append_nil _).symm) ?_⟩
  rw [List.length_append, padding_length]

/-- Settles O20: a valid BUILD writes the TapeImage frame, whose parts stand in order. -/
theorem tapeImageBuildWritesTheFrame : Obligations.TapeImageBuildWritesTheFrame := by
  intro s p hp hfmt hv hh
  obtain ⟨t, v, n, hexec, ht, hhalf, hlen, hframe⟩ := exec_build_latches_frame hp hv hh
  rw [State.frameOf_tapeImage hfmt] at hlen hframe
  obtain ⟨hpad, hsync, hpayload⟩ := frameHolds_tapeImageFrame s.frame p
  rw [← hframe] at hpad hsync hpayload
  obtain ⟨hn, -⟩ := hh
  refine ⟨t, v, n, hexec, ht, hhalf, ?_⟩
  rw [← addedSync_length]
  refine ⟨?_, fun k hk => ?_, fun hd => ?_, fun k hk => ?_, fun k hk => ?_⟩
  · rw [hlen, tapeImageFrame_eq, List.length_append, List.length_append, padding_length, hn]
  · exact hpad.read_padding hk
  · rw [addedSync_eq_of_length hd] at hsync
    exact hsync 0 Nat.one_pos
  · exact hpayload k (by omega)
  · rw [hframe, Memory.read_writeFrom_zero_of_length_le (by omega)]

/-! ### The BinaryLoader frame -/

theorem State.frameOf_binaryLoader {s : State} (h : s.fmt = .binaryLoader) (p : List Byte) :
    s.frameOf p = binaryLoaderFrame s.loadAddr.toNat p := by
  simp only [State.frameOf, h]

/-- The two bytes of a 16-bit field, from the number it holds (30_encoding.md R61). -/
theorem bigEndian16_ofNat (n : Nat) :
    bigEndian16 (BitVec.ofNat 16 n) = [BitVec.ofNat 8 (n / 256), BitVec.ofNat 8 (n % 256)] := by
  have hhigh : (BitVec.ofNat 16 n).extractLsb' 8 8 = BitVec.ofNat 8 (n / 256) := by
    apply BitVec.eq_of_toNat_eq
    simp only [BitVec.extractLsb'_toNat, BitVec.toNat_ofNat, Nat.shiftRight_eq_div_pow]
    omega
  have hlow : (BitVec.ofNat 16 n).extractLsb' 0 8 = BitVec.ofNat 8 (n % 256) := by
    apply BitVec.eq_of_toNat_eq
    simp only [BitVec.extractLsb'_toNat, BitVec.toNat_ofNat, Nat.shiftRight_zero]
    omega
  rw [bigEndian16, hhigh, hlow]

/-- The header of a BinaryLoader frame: sync byte, load address and end address
(40_frame_builder.md R77, R78). -/
def binaryHeader (loadAddr endAddr : Nat) : List Byte :=
  [0xE6, BitVec.ofNat 8 (loadAddr / 256), BitVec.ofNat 8 (loadAddr % 256),
    BitVec.ofNat 8 (endAddr / 256), BitVec.ofNat 8 (endAddr % 256)]

/-- The trailer of a BinaryLoader frame: two zero bytes, sync byte and checksum
(40_frame_builder.md R80). -/
def binaryTrailer (sum : Nat) : List Byte :=
  [0x00, 0x00, 0xE6, BitVec.ofNat 8 (sum / 256), BitVec.ofNat 8 (sum % 256)]

/-- The parts of a BinaryLoader frame (30_encoding.md R60). -/
theorem binaryLoaderFrame_eq (a : Nat) (p : List Byte) :
    binaryLoaderFrame a p = padding ++ binaryHeader a (a + p.length - 1) ++ p
      ++ binaryTrailer (checksum p).toNat := by
  have hsum : bigEndian16 (checksum p) = bigEndian16 (BitVec.ofNat 16 (checksum p).toNat) := by
    rw [BitVec.ofNat_toNat, BitVec.setWidth_eq]
  rw [binaryLoaderFrame, hsum, bigEndian16_ofNat, bigEndian16_ofNat, bigEndian16_ofNat]
  simp only [padding, binaryHeader, binaryTrailer, Config.sync, List.append_assoc, List.cons_append,
    List.nil_append]

/-- FRAME after a BinaryLoader frame is written to it: padding, header, payload and trailer, in order
(40_frame_builder.md R74, R77 to R80). -/
theorem frameHolds_binaryLoaderFrame (m : Memory) (a : Nat) (p : List Byte) :
    FrameHolds (Memory.writeFrom m 0 (binaryLoaderFrame a p)) 0 padding
    ∧ FrameHolds (Memory.writeFrom m 0 (binaryLoaderFrame a p)) 256 (binaryHeader a (a + p.length - 1))
    ∧ FrameHolds (Memory.writeFrom m 0 (binaryLoaderFrame a p)) 261 p
    ∧ FrameHolds (Memory.writeFrom m 0 (binaryLoaderFrame a p)) (261 + p.length)
        (binaryTrailer (checksum p).toNat) := by
  have hf := binaryLoaderFrame_eq a p
  have hheader : (padding ++ binaryHeader a (a + p.length - 1)).length = 261 := by
    rw [List.length_append, padding_length]; rfl
  have hfirst : binaryLoaderFrame a p = [] ++ padding ++ (binaryHeader a (a + p.length - 1) ++ p
      ++ binaryTrailer (checksum p).toNat) := by
    simp only [hf, List.nil_append, List.append_assoc]
  refine ⟨frameHolds_writeFrom_of_append hfirst rfl,
    frameHolds_writeFrom_of_append (hf.trans (List.append_assoc ..)) padding_length,
    frameHolds_writeFrom_of_append hf hheader,
    frameHolds_writeFrom_of_append (post := []) (hf.trans (List.append_nil _).symm) ?_⟩
  rw [List.length_append, hheader]

/-- Settles O21: a valid BUILD writes the BinaryLoader frame, whose parts stand in order. -/
theorem binaryLoaderBuildWritesTheFrame : Obligations.BinaryLoaderBuildWritesTheFrame := by
  intro s p hp hfmt hv hh
  obtain ⟨t, v, n, hexec, ht, hhalf, hlen, hframe⟩ := exec_build_latches_frame hp hv hh
  rw [State.frameOf_binaryLoader hfmt] at hlen hframe
  obtain ⟨hpad, hheader, hpayload, htrailer⟩ :=
    frameHolds_binaryLoaderFrame s.frame s.loadAddr.toNat p
  obtain ⟨hn, -⟩ := hh
  rw [← hframe] at hpad hheader hpayload htrailer
  rw [hn] at hheader htrailer
  rw [binaryLoaderFrame_length, hn] at hlen
  refine ⟨t, v, n, hexec, ht, hhalf, hlen, fun k hk => ?_, hheader, hpayload, htrailer, fun k hk => ?_⟩
  · exact hpad.read_padding hk
  · rw [hframe, Memory.read_writeFrom_zero_of_length_le (by rw [binaryLoaderFrame_length]; omega)]

end Sys2Proof.Machine

/-!
What a valid BUILD stops on, latches and lays out, read back: the checksum's closed form, the
half-bit and the fields of a frame (40_frame_builder.md).
-/
namespace Sys2Proof.Machine

/-! ### The checksum -/

/-- `lo & 0xFF`, with `hi` above it, as a number (40_frame_builder.md R81). -/
theorem ofNat_mask_or_shift_toNat {hi : Nat} (hhi : hi < 256) (lo : Nat) :
    (BitVec.ofNat 16 ((lo &&& 0xFF) ||| (hi <<< 8))).toNat = hi * 256 + lo % 256 := by
  have hmask : lo &&& 0xFF = lo % 2 ^ 8 := Nat.and_two_pow_sub_one_eq_mod lo 8
  have hor : hi <<< 8 ||| lo % 2 ^ 8 = hi * 2 ^ 8 + lo % 2 ^ 8 :=
    (Nat.shiftLeft_add_eq_or_of_lt (Nat.mod_lt _ (by decide)) hi).symm.trans
      (by rw [Nat.shiftLeft_eq])
  rw [hmask, Nat.or_comm, hor, BitVec.toNat_ofNat]
  omega

/-- The last byte goes into lo only, its carry dropped (40_frame_builder.md R81). -/
theorem checksumFrom_last {hi : Nat} (hhi : hi < 256) (lo : Nat) (b : Byte) :
    (checksumFrom lo hi [b]).toNat = hi * 256 + (lo + b.toNat) % 256 :=
  ofNat_mask_or_shift_toNat hhi (lo + b.toNat)

/-- Every other byte goes into lo and, with the carry out of lo, into hi (40_frame_builder.md R81). -/
theorem checksumFrom_cons_append_last {lo : Nat} (hlo : lo < 256) (hi : Nat) (a : Byte)
    (q : List Byte) (b : Byte) :
    checksumFrom lo hi (a :: q ++ [b]) = checksumFrom ((lo + a.toNat) % 256)
      ((hi + a.toNat + (lo + a.toNat) / 256) % 256) (q ++ [b]) := by
  have hmask (n : Nat) : n &&& 0xFF = n % 256 := Nat.and_two_pow_sub_one_eq_mod n 8
  have hcarry : (lo + a.toNat) >>> 8 &&& 1 = (lo + a.toNat) / 256 := by
    rw [Nat.and_one_is_mod, Nat.shiftRight_eq_div_pow]
    have := a.isLt
    omega
  rw [← hcarry, ← hmask, ← hmask]
  cases q <;> rfl

/-- The accumulators as the one number 256 * hi + lo: a byte that is not the last adds 257 times
itself to it, as its carry out of lo is kept in hi (40_frame_builder.md R81). -/
theorem checksumFrom_append_last (q : List Byte) (b : Byte) {lo hi : Nat} (hlo : lo < 256)
    (hhi : hi < 256) :
    let X := (256 * hi + lo + 257 * (q.map BitVec.toNat).sum) % 65536
    (checksumFrom lo hi (q ++ [b])).toNat = X / 256 * 256 + (X % 256 + b.toNat) % 256 := by
  induction q generalizing lo hi with
  | nil =>
    rw [List.nil_append, checksumFrom_last hhi, List.map_nil, List.sum_nil]
    omega
  | cons a q ih =>
    have hnext : (256 * ((hi + a.toNat + (lo + a.toNat) / 256) % 256) + (lo + a.toNat) % 256
        + 257 * (q.map BitVec.toNat).sum) % 65536
        = (256 * hi + lo + 257 * ((a :: q).map BitVec.toNat).sum) % 65536 := by
      rw [List.map_cons, List.sum_cons]
      omega
    rw [checksumFrom_cons_append_last hlo, ← hnext]
    exact ih (Nat.mod_lt _ (by decide)) (Nat.mod_lt _ (by decide))

/-- Settles O22: both accumulators start at 0. -/
theorem checksumHasTheClosedForm : Obligations.ChecksumHasTheClosedForm := by
  refine ⟨fun q b => ?_, by decide⟩
  simpa only [checksum, Nat.mul_zero, Nat.zero_add] using
    checksumFrom_append_last q b (lo := 0) (hi := 0) (by decide) (by decide)

/-! ### Stops and latches -/

/-- Settles O19: of the things BUILD can do, only the fault goes with a payload that is not there. -/
theorem buildFaultsExactlyOnUnwrittenSource : Obligations.BuildFaultsExactlyOnUnwrittenSource := by
  intro s hp hv
  rw [← s.payload_eq_none_iff, exec_build]
  rcases buildAt_cases Config.fileSizeLimit s with
    ⟨hplaying, -⟩ | ⟨-, hinvalid, -⟩ | ⟨-, -, hnone, hb⟩ | ⟨-, -, p, hh, hb⟩
  · exact absurd hplaying hp
  · exact absurd hv hinvalid
  · exact iff_of_true hb hnone
  · rw [hb, (s.payload_eq_some_iff p).2 hh]
    exact iff_of_false nofun nofun

/-- A BUILD that enters READY has installed the frame of its payload. -/
theorem build_installs_of_ready {s t : State} (hp : s.ctrl ≠ .playing)
    (h : exec .build s = .next t) (hr : t.ctrl = .ready) :
    BuildValid Config.fileSizeLimit s ∧ ∃ p, HoldsPayload s p
      ∧ t = (s.installFrame (s.frameOf p)).respondWrite := by
  cases transition_of_build h with
  | illegal hd => simp [hp] at hd
  | failBuild => cases hr
  | installFrame _ hv hh => exact ⟨hv, _, hh, rfl⟩
  | busError hd => simp at hd

/-- Settles O23: the half-bit is in range because there is a frame, and at the fastest rates the
quotient is below 2. -/
theorem halfBitIsLatchedByBuild : Obligations.HalfBitIsLatchedByBuild := by
  refine ⟨fun s t hp hexec hr => ?_, fun s t r w hexec => ?_⟩
  · obtain ⟨hv, p, hh, rfl⟩ := build_installs_of_ready hp hexec hr
    obtain ⟨-, -, hmin, hmax, -⟩ := hasFrame_installFrame hv hh
    obtain ⟨-, -, -, hbaud, -⟩ := hv
    have hhalf : (s.installFrame (s.frameOf p)).halfBit.toNat = 48000 / (2 * s.baud.toNat) :=
      halfBitOf_toNat hbaud
    refine ⟨hhalf, hmin, hmax, fun hfast => ?_, fun hone => ?_⟩
    · have hlt : 48000 / (2 * s.baud.toNat) < 2 := (Nat.div_lt_iff_lt_mul (by omega)).2 (by omega)
      exact Nat.le_antisymm (Nat.le_of_lt_succ (hhalf ▸ hlt)) hmin
    · rw [hone] at hhalf; exact hhalf
  · cases hexec; exact writeRegister_halfBit s w r

/-- Settles O43: BUILD and STOP are the only writers of the three, a reset apart. -/
theorem frameIsImmutableUntilBuildStopOrReset : Obligations.FrameIsImmutableUntilBuildStopOrReset := by
  intro s t x rest hs hstep hbuild hstop hreset
  obtain ⟨-, -, -, -, -, -, hlen, hhalf, -, -, -, -, -, hframe⟩ :=
    stateChangesOnlyByItsWriters s t x rest hs hstep hreset
  have hnone : ¬ ((decode x = .instr .build ∧ s.ctrl ≠ .playing) ∨ decode x = .instr .stop) :=
    fun h => h.elim (fun ⟨hb, _⟩ => hbuild hb) hstop
  refine ⟨of_not_not (mt hlen hnone), of_not_not (mt hhalf hnone), fun k _ => ?_⟩
  rw [of_not_not (mt hframe fun ⟨hb, _⟩ => hbuild hb)]

/-! ### A frame read back -/

/-- A byte that FRAME holds is the byte the block reads. -/
theorem FrameHolds.frameByte_eq {t : State} {base i : Nat} {bs : List Byte}
    (h : FrameHolds t.frame base bs) (hi : i < bs.length) : t.frameByte (base + i) = bs[i] := by
  rw [State.frameByte, h i hi, List.getElem?_eq_getElem hi, Option.getD_some]

/-- A reader that goes through the addresses of a byte sequence in FRAME gets the sequence. -/
theorem FrameHolds.map_frameByte_range {t : State} {base : Nat} {bs : List Byte}
    (h : FrameHolds t.frame base bs) :
    (List.range bs.length).map (fun k => t.frameByte (base + k)) = bs := by
  apply List.ext_getElem (by simp)
  intro i _ hi
  simpa using h.frameByte_eq hi

/-- A 16-bit number written high byte first is read back (30_encoding.md R61). -/
theorem State.field16_eq {t : State} {k n : Nat} (hn : n < 65536)
    (hhigh : t.frameByte k = BitVec.ofNat 8 (n / 256))
    (hlow : t.frameByte (k + 1) = BitVec.ofNat 8 (n % 256)) : t.field16 k = n := by
  rw [State.field16, hhigh, hlow, BitVec.toNat_ofNat, BitVec.toNat_ofNat]
  omega

/-- The two addresses of a BinaryLoader header, read back (40_frame_builder.md R78). -/
theorem FrameHolds.header_fields {t : State} {base a e : Nat}
    (h : FrameHolds t.frame base (binaryHeader a e)) (ha : a < 65536) (he : e < 65536) :
    t.frameByte base = 0xE6 ∧ t.field16 (base + 1) = a ∧ t.field16 (base + 3) = e := by
  have hbyte {i : Nat} (hi : i < 5) : t.frameByte (base + i) = (binaryHeader a e)[i] :=
    h.frameByte_eq hi
  exact ⟨hbyte (i := 0) (by decide),
    State.field16_eq ha (hbyte (i := 1) (by decide)) (hbyte (i := 2) (by decide)),
    State.field16_eq he (hbyte (i := 3) (by decide)) (hbyte (i := 4) (by decide))⟩

/-- The marks and the checksum of a BinaryLoader trailer, read back (40_frame_builder.md R80). -/
theorem FrameHolds.trailer_fields {t : State} {base c : Nat}
    (h : FrameHolds t.frame base (binaryTrailer c)) (hc : c < 65536) :
    t.frameByte base = 0x00 ∧ t.frameByte (base + 1) = 0x00 ∧ t.frameByte (base + 2) = 0xE6
      ∧ t.field16 (base + 3) = c := by
  have hbyte {i : Nat} (hi : i < 5) : t.frameByte (base + i) = (binaryTrailer c)[i] :=
    h.frameByte_eq hi
  exact ⟨hbyte (i := 0) (by decide), hbyte (i := 1) (by decide), hbyte (i := 2) (by decide),
    State.field16_eq hc (hbyte (i := 3) (by decide)) (hbyte (i := 4) (by decide))⟩

/-- The frame of a valid BUILD in BinaryLoader mode, read back field by field; the payload's length
is found from the two addresses (40_frame_builder.md R87). -/
theorem binaryLoader_build_reads_back {s : State} {p : List Byte} (hp : s.ctrl ≠ .playing)
    (hfmt : s.fmt = .binaryLoader) (hv : BuildValid Config.fileSizeLimit s)
    (hh : HoldsPayload s p) :
    ∃ t, exec .build s = .next t ∧ t.frameByte 256 = 0xE6
      ∧ t.field16 257 = s.loadAddr.toNat
      ∧ t.field16 259 = s.loadAddr.toNat + s.srcLen.toNat - 1
      ∧ t.field16 259 - t.field16 257 + 1 = s.srcLen.toNat
      ∧ (List.range s.srcLen.toNat).map (fun k => t.frameByte (261 + k)) = p
      ∧ t.frameByte (261 + s.srcLen.toNat) = 0x00 ∧ t.frameByte (262 + s.srcLen.toNat) = 0x00
      ∧ t.frameByte (263 + s.srcLen.toNat) = 0xE6
      ∧ (checksum p).toNat = t.field16 (264 + s.srcLen.toNat) := by
  obtain ⟨t, -, -, hexec, -, -, -, -, hheader, hpayload, htrailer, -⟩ :=
    binaryLoaderBuildWritesTheFrame s p hp hfmt hv hh
  obtain ⟨hpos, -, haddr, -⟩ := hv
  obtain ⟨-, hload, hend⟩ := haddr hfmt
  obtain ⟨hlen, -⟩ := hh
  obtain ⟨hsync, hfirst, hlast⟩ := FrameHolds.header_fields hheader (by omega) (by omega)
  obtain ⟨hzero, hzero', hsync', hsum⟩ := FrameHolds.trailer_fields htrailer (checksum p).isLt
  have hoffset (k : Nat) : 261 + s.srcLen.toNat + k = 261 + k + s.srcLen.toNat := by omega
  rw [hoffset] at hzero' hsync' hsum
  refine ⟨t, hexec, hsync, hfirst, hlast, ?_, ?_, hzero, hzero', hsync', hsum.symm⟩
  · rw [hfirst, hlast]; omega
  · rw [← hlen]; exact hpayload.map_frameByte_range

/-- The frame of a valid BUILD in TapeImage mode, read back: a sync byte, added or the payload's own,
and the payload to the frame's end (40_frame_builder.md R87). -/
theorem tapeImage_build_reads_back {s : State} {p : List Byte} (hp : s.ctrl ≠ .playing)
    (hfmt : s.fmt = .tapeImage) (hv : BuildValid Config.fileSizeLimit s) (hh : HoldsPayload s p) :
    let d := if p[0]? = some 0xE6 then 0 else 1
    ∃ t, exec .build s = .next t ∧ t.frameByte 256 = 0xE6
      ∧ (List.range (t.frameLen.toNat - (256 + d))).map (fun k => t.frameByte (256 + d + k)) = p := by
  obtain ⟨t, -, -, hexec, -, -, hframeLen, -, hsync, hpayload, -⟩ :=
    tapeImageBuildWritesTheFrame s p hp hfmt hv hh
  obtain ⟨hpos, -⟩ := hv
  obtain ⟨hlen, -⟩ := hh
  refine ⟨t, hexec, ?_, ?_⟩
  · by_cases hown : p[0]? = some 0xE6
    · have hread := hpayload 0 (by omega)
      rw [if_pos hown, hown] at hread
      rw [State.frameByte, hread, Option.getD_some]
    · rw [State.frameByte, hsync (if_neg hown), Option.getD_some]
  · rw [hframeLen, Nat.add_sub_cancel_left, ← hlen]
    exact FrameHolds.map_frameByte_range fun k hk => hpayload k (by omega)

/-- The ambiguity of 40_frame_builder.md R87: a sync byte that begins the payload stands where BUILD
would have added one. -/
theorem tapeImageFrame_sync_cons {p : List Byte} (h : p[0]? ≠ some 0xE6) :
    tapeImageFrame (0xE6 :: p) = tapeImageFrame p := by
  have hown : addedSync (0xE6 :: p) = [] := if_pos rfl
  have hadded : addedSync p = [0xE6] := if_neg h
  rw [tapeImageFrame_eq, tapeImageFrame_eq, hown, hadded]
  simp only [List.append_nil, List.append_assoc, List.cons_append, List.nil_append]

/-- Settles O24: in either mode the parts that BUILD laid out are read back. -/
theorem frameDecodesBackToItsSource : Obligations.FrameDecodesBackToItsSource := by
  refine ⟨fun s p hp hv hh => ?_, (tapeImageFrame_sync_cons (by decide)).symm⟩
  cases hfmt : s.fmt with
  | binaryLoader =>
    obtain ⟨t, hexec, hsync, hfirst, hlast, hlen, hrest⟩ :=
      binaryLoader_build_reads_back hp hfmt hv hh
    refine ⟨t, hexec, hsync, fun _ => ⟨hfirst, hlast, hlen, ?_⟩, nofun⟩
    rw [hlen]
    exact hrest
  | tapeImage =>
    obtain ⟨t, hexec, hsync, hpayload⟩ := tapeImage_build_reads_back hp hfmt hv hh
    exact ⟨t, hexec, hsync, nofun, fun _ => hpayload⟩

end Sys2Proof.Machine

/-!
START and TICK, and the playback of a frame as a closed form of the number of TICKs sent
(41_sample_generator.md).
-/
namespace Sys2Proof.Machine

/-! ### One TICK -/

/-- A TICK in PLAYING sends the current half-bit, then moves the cursor (41_sample_generator.md R90). -/
theorem exec_tick_playing {s : State} (hp : s.ctrl = .playing) :
    exec .tick s = .next (s.emit (polarity s.currentBit s.cursor.phase)).advanceCursor := if_pos hp

/-- Settles O26: the first line of TICK's pseudocode. -/
theorem tickOutsidePlayingIsSilent : Obligations.TickOutsidePlayingIsSilent := by
  intro s hp
  exact if_neg hp

/-- Exclusive or of two bits is that they differ (41_sample_generator.md R93). -/
theorem polarity_eq_ite (bit phase : Bool) :
    polarity bit phase = if bit ≠ phase then .pos else .neg := by
  cases bit <;> cases phase <;> rfl

/-- The second half of bit a and the first half of bit c have different symbols exactly when the bits
are equal (41_sample_generator.md R93, R101). -/
theorem polarity_ne_iff (a c : Bool) : polarity a false ≠ polarity c true ↔ a = c := by
  cases a <;> cases c <;> decide

/-- Settles O27: the five cursor cases are those of the cursor's advance and of a complete bit. -/
theorem tickSendsTheBitAndAdvances : Obligations.TickSendsTheBitAndAdvances := by
  refine ⟨tickOutsidePlayingIsSilent, fun s hp _ hbyte => ?_⟩
  have hend : s.cursor.bytePos.toNat + 1 = s.frameLen.toNat ↔ s.cursor.bytePos + 1 = s.frameLen := by
    bv_omega
  rw [exec_tick_playing hp, polarity_eq_ite]
  intro c bit u
  change Host.Outcome.next u.advanceCursor = _
  congr 1
  rcases u.advanceCursor_cases with ⟨hcnt, heq⟩ | ⟨hcnt, hphase, heq⟩ | ⟨hcnt, hphase, heq⟩ <;> rw [heq]
  · exact (if_pos hcnt).symm
  · rw [if_neg (not_not.2 hcnt), if_pos hphase]
  · rw [if_neg (not_not.2 hcnt), if_neg (Bool.eq_false_iff.1 hphase)]
    rcases State.completeBit_cases
      { u with cursor := { u.cursor with hbCnt := u.halfBit - 1, phase := true } } with
      ⟨hbit, heq⟩ | ⟨hbit, hmore, heq⟩ | ⟨hbit, hlast, heq⟩ <;> rw [heq]
    · exact (if_pos hbit).symm
    · rw [if_neg (not_not.2 hbit), if_pos (mt hend.1 hmore)]
    · rw [if_neg (not_not.2 hbit), if_neg (not_not.2 (hend.2 hlast)), ← hlast]

/-! ### START -/

/-- START in READY (41_sample_generator.md R89). -/
theorem exec_start_ready {s : State} (hr : s.ctrl = .ready) : exec .start s = .next (State.respondWrite
    { s with ctrl := .playing, cursor := ⟨0, 7, true, s.halfBit - 1, false⟩ }) := if_pos hr

/-- The cursor's advance is no output (41_sample_generator.md R97). -/
theorem State.advanceCursor_sampleOut (s : State) : s.advanceCursor.sampleOut = s.sampleOut := by
  rw [s.advanceCursor_frame.1]

/-- Settles O16: in the first half of a bit, which START begins with, a 1 is NEG. -/
theorem startBeginsPlaybackOnlyFromReady : Obligations.StartBeginsPlaybackOnlyFromReady := by
  refine ⟨commandWordsDecodeByTheMap 2, fun s hr hhalf => ?_,
    fun s hr => ⟨_, _, exec_start_not_ready hr⟩⟩
  have hreload : (s.halfBit - 1).toNat = s.halfBit.toNat - 1 := by bv_omega
  refine ⟨_, _, _, _, exec_start_ready hr, rfl, hreload, _, exec_tick_playing rfl, ?_⟩
  rw [State.advanceCursor_sampleOut]
  change polarity ((s.frameByte 0).getLsbD 7) true = _
  cases (s.frameByte 0).getLsbD 7 <;> rfl

/-! ### Runs of TICKs -/

theorem tickTimes_succ {k : Nat} {s t : State} (h : tickTimes k s = .next t) :
    tickTimes (k + 1) s = exec .tick t := by
  simp only [tickTimes, h]

/-- A run of TICKs goes on from where a shorter one ends. -/
theorem tickTimes_add {a : Nat} {s t : State} (h : tickTimes a s = .next t) (b : Nat) :
    tickTimes (a + b) s = tickTimes b t := by
  induction b with
  | zero => exact h
  | succ b ih => rw [← Nat.add_assoc]; simp only [tickTimes, ih]

/-- In FINISHED no number of TICKs changes more than the symbol (41_sample_generator.md R102). -/
theorem tickTimes_finished {s : State} (hf : s.ctrl = .finished) (k : Nat) :
    tickTimes (k + 1) s = .next { s with sampleOut := .zero } := by
  have hsilent (t : State) (ht : t.ctrl = .finished) :
      exec .tick t = .next { t with sampleOut := .zero } :=
    tickOutsidePlayingIsSilent t (by simp [ht])
  induction k with
  | zero => exact hsilent s hf
  | succ k ih => rw [tickTimes_succ ih]; exact hsilent _ hf

/-- Settles O32: of the operations that write STATE, TICK and START leave FINISHED as it is. -/
theorem finishedIsSilentUntilBuildStopOrReset : Obligations.FinishedIsSilentUntilBuildStopOrReset := by
  refine ⟨fun s k hf => tickTimes_finished hf k, fun s t x rest hf hs hstep hleft => ?_⟩
  by_cases hreset : decode x = .reset
  · exact .inr (.inr hreset)
  obtain ⟨-, -, hctrl, -⟩ := stateChangesOnlyByItsWriters s t x rest hs hstep hreset
  have hnext {i : Instr} {u : State} (hd : decode x = .instr i)
      (hexec : exec i { s with inputs := rest } = .next u) : u = t :=
    Host.Outcome.next.inj
      (hexec.symm.trans ((stepRunsTheDecodedInstruction s x rest i hs hd).symm.trans hstep))
  rcases hctrl (hf ▸ hleft) with hd | hd | hd | hd
  · obtain rfl := hnext hd (tickOutsidePlayingIsSilent _ (by simp [hf]))
    exact absurd hf hleft
  · obtain rfl := hnext hd (exec_start_not_ready (by simp [hf]))
    exact absurd hf hleft
  · exact .inl hd
  · exact .inr (.inl hd)

/-! ### Playback in closed form

A half-bit is the unit of playback: half-bit m of the frame sends bit m / 2, in the first half of its
period when m is even, for HALF_BIT TICKs. So j TICKs after START the cursor is in half-bit
j / HALF_BIT, of which j % HALF_BIT TICKs are sent. -/

/-- The symbol of half-bit m of the frame (41_sample_generator.md R93). -/
def State.halfBitSymbol (s : State) (m : Nat) : Symbol :=
  polarity (s.frameBit (m / 2)) (decide (m % 2 = 0))

/-- The state in half-bit m of the frame with the countdown n, the last symbol being sym. The half-bit
after the last one, 16 · FRAME_LEN, is FINISHED (41_sample_generator.md R96). -/
def State.inHalfBit (s : State) (m : Nat) (n : BitVec 15) (sym : Symbol) : State :=
  { s with ctrl := if m < 16 * s.frameLen.toNat then .playing else .finished
           cursor := ⟨BitVec.ofNat 17 (m / 16), BitVec.ofNat 3 (7 - m / 2 % 8), decide (m % 2 = 0), n,
             decide (16 * s.frameLen.toNat ≤ m)⟩
           sampleOut := sym }

/-- A half-bit of the frame is sent in PLAYING. -/
theorem State.inHalfBit_of_lt {s : State} {m : Nat} (hm : m < 16 * s.frameLen.toNat) (n : BitVec 15)
    (sym : Symbol) : s.inHalfBit m n sym =
      { s with ctrl := .playing, sampleOut := sym, cursor :=
          ⟨BitVec.ofNat 17 (m / 16), BitVec.ofNat 3 (7 - m / 2 % 8), decide (m % 2 = 0), n, false⟩ } := by
  rw [State.inHalfBit, if_pos hm, decide_eq_false (Nat.not_le.2 hm)]

/-- After the last half-bit the block is in FINISHED, the cursor past the frame
(41_sample_generator.md R96). -/
theorem State.inHalfBit_of_eq {s : State} {m : Nat} (hm : m = 16 * s.frameLen.toNat) (n : BitVec 15)
    (sym : Symbol) : s.inHalfBit m n sym =
      { s with ctrl := .finished, sampleOut := sym, cursor := ⟨s.frameLen, 7, true, n, true⟩ } := by
  have hbyte : m / 16 = s.frameLen.toNat := by omega
  have hbit : m / 2 % 8 = 0 := by omega
  have hphase : m % 2 = 0 := by omega
  rw [State.inHalfBit, if_neg (Nat.not_lt.2 hm.ge), hbyte, hbit, decide_eq_true hphase,
    decide_eq_true hm.ge, BitVec.ofNat_toNat, BitVec.setWidth_eq]
  rfl

/-- BYTE_POS in half-bit m, as a number. -/
theorem State.inHalfBit_bytePos_toNat {s : State} {m : Nat} (hm : m < 16 * s.frameLen.toNat)
    (n : BitVec 15) (sym : Symbol) : (s.inHalfBit m n sym).cursor.bytePos.toNat = m / 16 := by
  have := s.frameLen.isLt
  exact Nat.mod_eq_of_lt (by omega)

/-- The bit sent in half-bit m (41_sample_generator.md R92). -/
theorem State.inHalfBit_currentBit {s : State} {m : Nat} (hm : m < 16 * s.frameLen.toNat)
    (n : BitVec 15) (sym : Symbol) : (s.inHalfBit m n sym).currentBit = s.frameBit (m / 2) := by
  have hbit : (s.inHalfBit m n sym).cursor.bitPos.toNat = 7 - m / 2 % 8 :=
    Nat.mod_eq_of_lt (by omega)
  rw [State.currentBit, inHalfBit_bytePos_toNat hm, hbit, State.frameBit, Nat.div_div_eq_div_mul]
  rfl

/-- A TICK in half-bit m sends the half-bit's symbol. -/
theorem exec_tick_inHalfBit {s : State} {m : Nat} (hm : m < 16 * s.frameLen.toNat)
    (n : BitVec 15) (sym : Symbol) :
    exec .tick (s.inHalfBit m n sym) = .next (s.inHalfBit m n (s.halfBitSymbol m)).advanceCursor := by
  rw [exec_tick_playing (s := s.inHalfBit m n sym) (if_pos hm), State.inHalfBit_currentBit hm]
  rfl

/-- While the countdown runs the half-bit goes on (41_sample_generator.md R94). -/
theorem State.inHalfBit_advanceCursor_of_ne_zero (s : State) (m : Nat) {n : BitVec 15} (hn : n ≠ 0)
    (sym : Symbol) : (s.inHalfBit m n sym).advanceCursor = s.inHalfBit m (n - 1) sym := if_neg hn

/-- The eighth bit of a byte is bit 0 (30_encoding.md R62). -/
theorem bitPos_eq_zero_iff (b : Nat) : BitVec.ofNat 3 (7 - b % 8) = 0 ↔ b % 8 = 7 := by
  have hle : (BitVec.ofNat 3 (7 - b % 8)).toNat = 7 - b % 8 := Nat.mod_eq_of_lt (by omega)
  bv_omega

/-- BIT_POS counts down, modulo 8 (41_sample_generator.md R95, R96). -/
theorem bitPos_sub_one (b : Nat) :
    BitVec.ofNat 3 (7 - b % 8) - 1 = BitVec.ofNat 3 (7 - (b + 1) % 8) := by
  bv_omega

/-- BYTE_POS reaches FRAME_LEN after the frame's last byte (41_sample_generator.md R96). -/
theorem bytePos_add_one_eq_iff {L : BitVec 17} {i : Nat} (hi : i < L.toNat) :
    BitVec.ofNat 17 i + 1 = L ↔ i + 1 = L.toNat := by
  bv_omega

/-- The end of the first half of a bit leads to its second half (41_sample_generator.md R95). -/
theorem State.inHalfBit_second_half {s : State} {m : Nat} (hm : m < 16 * s.frameLen.toNat)
    (heven : m % 2 = 0) (n : BitVec 15) (sym : Symbol) :
    { s.inHalfBit m n sym with cursor := { (s.inHalfBit m n sym).cursor with phase := false } }
      = s.inHalfBit (m + 1) n sym := by
  have hm' : m + 1 < 16 * s.frameLen.toNat := by omega
  have hbyte : (m + 1) / 16 = m / 16 := by omega
  have hbit : (m + 1) / 2 = m / 2 := by omega
  have hphase : (m + 1) % 2 ≠ 0 := by omega
  simp [State.inHalfBit_of_lt hm, State.inHalfBit_of_lt hm', hbyte, hbit, hphase]

/-- The end of the second half of a bit leads to the first half of the next one, or to FINISHED
(41_sample_generator.md R95, R96). -/
theorem State.inHalfBit_next_bit {s : State} {m : Nat} (hm : m < 16 * s.frameLen.toNat)
    (hodd : m % 2 = 1) (n : BitVec 15) (sym : Symbol) :
    State.completeBit
      { s.inHalfBit m n sym with cursor := { (s.inHalfBit m n sym).cursor with phase := true } }
      = s.inHalfBit (m + 1) n sym := by
  have hbit : (m + 1) / 2 = m / 2 + 1 := by omega
  have hphase : (m + 1) % 2 = 0 := by omega
  have hend := bytePos_add_one_eq_iff (L := s.frameLen) (i := m / 16) (by omega)
  rcases State.completeBit_cases
    { s.inHalfBit m n sym with cursor := { (s.inHalfBit m n sym).cursor with phase := true } } with
    ⟨hpos, heq⟩ | ⟨hpos, hmore, heq⟩ | ⟨hpos, hlast, heq⟩ <;> refine heq.trans ?_
  · have hnotLast : m / 2 % 8 ≠ 7 := mt (bitPos_eq_zero_iff _).2 hpos
    have hbyte : (m + 1) / 16 = m / 16 := by omega
    have hm' : m + 1 < 16 * s.frameLen.toNat := by omega
    simp [State.inHalfBit_of_lt hm, State.inHalfBit_of_lt hm', hbyte, hbit, hphase, ← bitPos_sub_one]
  · have hlastBit : m / 2 % 8 = 7 := (bitPos_eq_zero_iff _).1 hpos
    have hbyte : (m + 1) / 16 = m / 16 + 1 := by omega
    have hm' : m + 1 < 16 * s.frameLen.toNat := by have := mt hend.2 hmore; omega
    have hfirstBit : (m / 2 + 1) % 8 = 0 := by omega
    simp [State.inHalfBit_of_lt hm, State.inHalfBit_of_lt hm', hbyte, hbit, hphase, hfirstBit,
      BitVec.ofNat_add]
  · have hlastBit : m / 2 % 8 = 7 := (bitPos_eq_zero_iff _).1 hpos
    have hm' : m + 1 = 16 * s.frameLen.toNat := by have := hend.1 hlast; omega
    simpa [State.inHalfBit_of_lt hm, State.inHalfBit_of_eq hm'] using hend.2 (by omega)

/-- At the countdown's end the next half-bit begins (41_sample_generator.md R94). -/
theorem State.inHalfBit_advanceCursor_of_zero {s : State} {m : Nat} (hm : m < 16 * s.frameLen.toNat)
    (sym : Symbol) :
    (s.inHalfBit m 0 sym).advanceCursor = s.inHalfBit (m + 1) (s.halfBit - 1) sym := by
  rcases (s.inHalfBit m 0 sym).advanceCursor_cases with
    ⟨hcnt, -⟩ | ⟨-, hphase, heq⟩ | ⟨-, hphase, heq⟩
  · exact absurd rfl hcnt
  · have heven : m % 2 = 0 := of_decide_eq_true hphase
    exact heq.trans (State.inHalfBit_second_half hm heven (s.halfBit - 1) sym)
  · have hodd : m % 2 = 1 := Nat.mod_two_ne_zero.1 (of_decide_eq_false hphase)
    exact heq.trans (State.inHalfBit_next_bit hm hodd (s.halfBit - 1) sym)

/-! ### The playback of a frame -/

/-- The symbol that stands after j TICKs of playback (41_sample_generator.md R99). -/
def State.symbolAfter (s : State) : Nat → Symbol
  | 0 => s.sampleOut
  | j + 1 => s.halfBitSymbol (j / s.halfBit.toNat)

/-- The state after j TICKs of playback (41_sample_generator.md R99). -/
def State.playback (s : State) (j : Nat) : State :=
  s.inHalfBit (j / s.halfBit.toNat) (s.halfBit - 1 - BitVec.ofNat 15 (j % s.halfBit.toNat))
    (s.symbolAfter j)

/-- START begins the playback (41_sample_generator.md R89). -/
theorem exec_start_playback {s : State} (hr : s.ctrl = .ready) (hL : 0 < s.frameLen.toNat) :
    exec .start s = .next (s.respondWrite.playback 0) := by
  have hfirst : 0 < 16 * s.respondWrite.frameLen.toNat := Nat.mul_pos (by decide) hL
  rw [exec_start_ready hr, State.playback, Nat.zero_div, Nat.zero_mod, State.inHalfBit_of_lt hfirst,
    BitVec.sub_zero]
  rfl

/-- The length of the schedule, in half-bits of H TICKs (41_sample_generator.md R99). -/
theorem schedule_length (H L : Nat) : 16 * H * L = H * (16 * L) := by ring

/-- A TICK of the schedule is in one of the frame's half-bits. -/
theorem State.halfBit_index_lt {s : State} {j : Nat}
    (hj : j < 16 * s.halfBit.toNat * s.frameLen.toNat) : j / s.halfBit.toNat < 16 * s.frameLen.toNat :=
  Nat.div_lt_of_lt_mul (schedule_length .. ▸ hj)

/-- Before the end of the schedule the block is in PLAYING. -/
theorem State.playback_ctrl_playing {s : State} {j : Nat}
    (hj : j < 16 * s.halfBit.toNat * s.frameLen.toNat) : (s.playback j).ctrl = .playing :=
  if_pos (State.halfBit_index_lt hj)

/-- At the end of the schedule the block is in FINISHED. -/
theorem State.playback_ctrl_finished {s : State} (hH : 0 < s.halfBit.toNat) :
    (s.playback (16 * s.halfBit.toNat * s.frameLen.toNat)).ctrl = .finished := by
  have hm : 16 * s.halfBit.toNat * s.frameLen.toNat / s.halfBit.toNat = 16 * s.frameLen.toNat := by
    rw [schedule_length, Nat.mul_div_cancel_left _ hH]
  rw [State.playback, State.inHalfBit_of_eq hm]

/-- A TICK of the schedule takes the playback one TICK on: it counts down inside a half-bit, and
begins the next one at its end (41_sample_generator.md R94). -/
theorem State.exec_tick_playback {s : State} (hH : 0 < s.halfBit.toNat) {j : Nat}
    (hj : j < 16 * s.halfBit.toNat * s.frameLen.toNat) :
    exec .tick (s.playback j) = .next (s.playback (j + 1)) := by
  have hm := State.halfBit_index_lt hj
  have hlt := Nat.mod_lt j hH
  have hmod : (j + 1) % s.halfBit.toNat = (j % s.halfBit.toNat + 1) % s.halfBit.toNat :=
    (Nat.mod_add_mod ..).symm
  rw [State.playback, exec_tick_inHalfBit hm, State.playback, State.symbolAfter]
  congr 1
  rcases Nat.lt_or_eq_of_le (show j % s.halfBit.toNat + 1 ≤ _ from hlt) with hinside | hlast
  · rw [Nat.mod_eq_of_lt hinside] at hmod
    have hdiv : (j + 1) / s.halfBit.toNat = j / s.halfBit.toNat :=
      Nat.succ_div_of_mod_ne_zero (by omega)
    rw [State.inHalfBit_advanceCursor_of_ne_zero _ _ (by bv_omega), hdiv, hmod, BitVec.ofNat_add]
    congr 1
    bv_omega
  · have hzero : s.halfBit - 1 - BitVec.ofNat 15 (j % s.halfBit.toNat) = 0 := by bv_omega
    rw [hlast, Nat.mod_self] at hmod
    rw [hzero, State.inHalfBit_advanceCursor_of_zero hm, Nat.succ_div_of_mod_eq_zero hmod, hmod,
      BitVec.sub_zero]

/-- The state after any number of TICKs of the schedule (41_sample_generator.md R99). -/
theorem tickTimes_playback {s : State} (hH : 0 < s.halfBit.toNat) {j : Nat}
    (hj : j ≤ 16 * s.halfBit.toNat * s.frameLen.toNat) :
    tickTimes j (s.playback 0) = .next (s.playback j) := by
  induction j with
  | zero => rfl
  | succ j ih => rw [tickTimes_succ (ih (Nat.le_of_succ_le hj)), State.exec_tick_playback hH hj]

/-- The symbol that a TICK of the schedule emits is its half-bit's. -/
theorem symbolOfTick_playback {s : State} (hH : 0 < s.halfBit.toNat) {j : Nat}
    (hj : j < 16 * s.halfBit.toNat * s.frameLen.toNat) :
    symbolOfTick (j + 1) (s.playback 0) = some (s.halfBitSymbol (j / s.halfBit.toNat)) := by
  rw [symbolOfTick, tickTimes_playback hH hj]
  rfl

/-- After the schedule every TICK is silent (41_sample_generator.md R99). -/
theorem symbolOfTick_playback_of_lt {s : State} (hH : 0 < s.halfBit.toNat) {k : Nat}
    (hk : 16 * s.halfBit.toNat * s.frameLen.toNat < k) :
    symbolOfTick k (s.playback 0) = some .zero := by
  obtain ⟨d, rfl⟩ := Nat.exists_eq_add_of_lt hk
  rw [symbolOfTick, Nat.add_assoc, tickTimes_add (tickTimes_playback hH le_rfl),
    tickTimes_finished (State.playback_ctrl_finished hH)]

/-- PHASE after a number of TICKs of the schedule: 1 in the even half-bits. -/
theorem phaseAfter_playback {s : State} (hH : 0 < s.halfBit.toNat) {j : Nat}
    (hj : j ≤ 16 * s.halfBit.toNat * s.frameLen.toNat) :
    phaseAfter j (s.playback 0) = some (decide (j / s.halfBit.toNat % 2 = 0)) := by
  rw [phaseAfter, tickTimes_playback hH hj]
  rfl

/-! ### Playback from READY -/

theorem BlockInv.hasFrame_of_ready {s : State} (h : BlockInv s) (hr : s.ctrl = .ready) :
    HasFrame Config.fileSizeLimit s := by
  obtain ⟨hcursor, -⟩ := h
  exact ((cursorInv_iff_of_ready hr).1 hcursor).1

theorem HasFrame.halfBit_pos {limit : Nat} {s : State} (h : HasFrame limit s) :
    0 < s.halfBit.toNat := by
  obtain ⟨-, -, hpos, -⟩ := h
  exact hpos

/-- The playback that START begins is that of the frame in READY, the bus response apart. -/
theorem HasFrame.start_eq_playback {limit : Nat} {s t : State} (h : HasFrame limit s)
    (hr : s.ctrl = .ready) (hstart : exec .start s = .next t) : t = s.respondWrite.playback 0 :=
  Host.Outcome.next.inj (hstart.symm.trans (exec_start_playback hr h.frameLen_pos))

/-- Playback is in PLAYING for the TICKs of the schedule, the last of which enters FINISHED
(41_sample_generator.md R99). -/
theorem HasFrame.playback_duration {limit : Nat} {s t : State} (h : HasFrame limit s)
    (hr : s.ctrl = .ready) (hstart : exec .start s = .next t) :
    (∀ j, j < 16 * s.halfBit.toNat * s.frameLen.toNat →
      ∃ u, tickTimes j t = .next u ∧ u.ctrl = .playing)
    ∧ ∃ u, tickTimes (16 * s.halfBit.toNat * s.frameLen.toNat) t = .next u ∧ u.ctrl = .finished := by
  have hH : 0 < s.respondWrite.halfBit.toNat := h.halfBit_pos
  rw [h.start_eq_playback hr hstart]
  exact ⟨fun j hj => ⟨_, tickTimes_playback hH hj.le, State.playback_ctrl_playing hj⟩,
    _, tickTimes_playback hH le_rfl, State.playback_ctrl_finished hH⟩

/-- The symbol of a TICK's half-bit by the indices of 41_sample_generator.md R99. -/
theorem State.halfBitSymbol_schedule (s : State) (H j : Nat) :
    s.halfBitSymbol (j / H) =
      if (s.frameByte (j / (16 * H))).getLsbD (7 - j / (2 * H) % 8) ≠ decide (j / H % 2 = 0)
      then .pos else .neg := by
  have hbit : j / H / 2 = j / (2 * H) := by rw [Nat.div_div_eq_div_mul, Nat.mul_comm]
  have hbyte : j / (2 * H) / 8 = j / (16 * H) := by
    rw [Nat.div_div_eq_div_mul, Nat.mul_right_comm]
  rw [State.halfBitSymbol, polarity_eq_ite, State.frameBit, hbit, hbyte]

/-- Settles O29: the state after j TICKs has a closed form, and its symbol is the schedule's. -/
theorem playbackFollowsTheSampleSchedule : Obligations.PlaybackFollowsTheSampleSchedule := by
  intro s t hinv hr hstart
  have hframe := hinv.hasFrame_of_ready hr
  have hH : 0 < s.respondWrite.halfBit.toNat := hframe.halfBit_pos
  obtain ⟨hplaying, hfinished⟩ := hframe.playback_duration hr hstart
  obtain rfl := hframe.start_eq_playback hr hstart
  refine ⟨fun j hj => ?_, hfinished, fun k hk => symbolOfTick_playback_of_lt hH hk⟩
  obtain ⟨u, hu, hctrl⟩ := hplaying j hj
  exact ⟨u, _, hu, hctrl, tickTimes_playback hH hj, s.respondWrite.halfBitSymbol_schedule _ j⟩

/-- PHASE has toggled once for each half-bit that is complete (41_sample_generator.md R94, R95). -/
theorem phaseToggles_playback {s : State} (hH : 0 < s.halfBit.toNat) {j : Nat}
    (hj : j ≤ 16 * s.halfBit.toNat * s.frameLen.toNat) :
    phaseToggles j (s.playback 0) = j / s.halfBit.toNat := by
  induction j with
  | zero => exact (Nat.zero_div _).symm
  | succ j ih =>
    have hj' := Nat.le_of_succ_le hj
    rw [phaseToggles, ih hj', phaseAfter_playback hH hj', phaseAfter_playback hH hj]
    by_cases hend : (j + 1) % s.halfBit.toNat = 0
    · rw [Nat.succ_div_of_mod_eq_zero hend, if_neg]
      simp only [Option.some.injEq, decide_eq_decide]
      omega
    · rw [Nat.succ_div_of_mod_ne_zero hend, if_pos rfl, Nat.add_zero]

/-- Settles O30: the schedule completes 16 · L half-bits. -/
theorem phaseTogglesSixteenTimesPerByte : Obligations.PhaseTogglesSixteenTimesPerByte := by
  intro s t hinv hr hstart
  have hframe := hinv.hasFrame_of_ready hr
  have hH : 0 < s.respondWrite.halfBit.toNat := hframe.halfBit_pos
  rw [hframe.start_eq_playback hr hstart]
  refine (phaseToggles_playback hH le_rfl).trans ?_
  rw [schedule_length]
  exact Nat.mul_div_cancel_left _ hH

/-- The symbols on the two sides of the boundary after half-bit m. -/
theorem symbols_at_halfBit_boundary {s : State} (hH : 0 < s.halfBit.toNat) {m : Nat}
    (hm : m + 1 < 16 * s.frameLen.toNat) :
    symbolOfTick (s.halfBit.toNat * (m + 1)) (s.playback 0) = some (s.halfBitSymbol m)
    ∧ symbolOfTick (s.halfBit.toNat * (m + 1) + 1) (s.playback 0)
      = some (s.halfBitSymbol (m + 1)) := by
  have hnext : s.halfBit.toNat * (m + 1) < 16 * s.halfBit.toNat * s.frameLen.toNat := by
    rw [schedule_length]; exact Nat.mul_lt_mul_of_pos_left hm hH
  have hindex : s.halfBit.toNat * (m + 1) = s.halfBit.toNat * m + (s.halfBit.toNat - 1) + 1 := by
    rw [Nat.mul_succ]; omega
  have hdiv : (s.halfBit.toNat * m + (s.halfBit.toNat - 1)) / s.halfBit.toNat = m := by
    rw [Nat.mul_add_div hH, Nat.div_eq_of_lt (Nat.sub_one_lt_of_lt hH), Nat.add_zero]
  refine ⟨?_, ?_⟩
  · rw [hindex, symbolOfTick_playback hH (by omega), hdiv]
  · rw [symbolOfTick_playback hH hnext, Nat.mul_div_cancel_left _ hH]

/-- The first half of bit m is half-bit 2 · m. -/
theorem State.halfBitSymbol_first (s : State) (m : Nat) :
    s.halfBitSymbol (2 * m) = polarity (s.frameBit m) true := by
  rw [State.halfBitSymbol, Nat.mul_div_cancel_left m (by decide), Nat.mul_mod_right]
  rfl

/-- The second half of bit m is half-bit 2 · m + 1. -/
theorem State.halfBitSymbol_second (s : State) (m : Nat) :
    s.halfBitSymbol (2 * m + 1) = polarity (s.frameBit m) false := by
  have hbit : (2 * m + 1) / 2 = m := by omega
  have hphase : (2 * m + 1) % 2 ≠ 0 := by omega
  rw [State.halfBitSymbol, hbit, decide_eq_false hphase]

/-- Settles O31: a bit's midpoint follows its first half-bit, and its end its second. -/
theorem lineCodeIsSelfClocking : Obligations.LineCodeIsSelfClocking := by
  intro s t hinv hr hstart
  have hframe := hinv.hasFrame_of_ready hr
  have hH : 0 < s.respondWrite.halfBit.toNat := hframe.halfBit_pos
  rw [hframe.start_eq_playback hr hstart]
  refine ⟨fun m hm => ?_, fun m hm => ?_⟩
  · have hbound : 2 * m + 1 < 16 * s.frameLen.toNat := by omega
    obtain ⟨hbefore, hafter⟩ := symbols_at_halfBit_boundary hH hbound
    rw [State.halfBitSymbol_first] at hbefore
    rw [State.halfBitSymbol_second] at hafter
    have hindex : 2 * s.halfBit.toNat * m + s.halfBit.toNat = s.halfBit.toNat * (2 * m + 1) := by ring
    rw [hindex]
    refine (hbefore.trans_ne ((Option.some_injective _).ne ?_)).trans_eq hafter.symm
    exact ((polarity_ne_iff _ _).2 rfl).symm
  · have hbound : 2 * m + 1 + 1 < 16 * s.frameLen.toNat := by omega
    obtain ⟨hbefore, hafter⟩ := symbols_at_halfBit_boundary hH hbound
    rw [State.halfBitSymbol_second] at hbefore
    rw [show 2 * m + 1 + 1 = 2 * (m + 1) from rfl, State.halfBitSymbol_first] at hafter
    have hindex : 2 * s.halfBit.toNat * (m + 1) = s.halfBit.toNat * (2 * (m + 1)) := by ring
    rw [hindex]
    exact (not_congr ((hbefore.congr hafter).trans Option.some_inj)).trans (polarity_ne_iff _ _)

/-! ### The duration of playback -/

/-- Settles O25: a half-bit is at most 48000 / (2 · BAUD) TICKs, and the frame has 16 · L of them. -/
theorem playbackNeverOutlastsItsNominalTime : Obligations.PlaybackNeverOutlastsItsNominalTime := by
  intro s t u hp hbuild hready hstart n
  obtain ⟨hhalf, -⟩ := halfBitIsLatchedByBuild.1 s t hp hbuild hready
  have hframe : HasFrame Config.fileSizeLimit t := by
    obtain ⟨hv, p, hh, rfl⟩ := build_installs_of_ready hp hbuild hready
    exact hasFrame_installFrame hv hh
  obtain ⟨hplaying, hfinished⟩ := hframe.playback_duration hready hstart
  have hduration : n * s.baud.toNat
      = t.frameLen.toNat * 8 * (48000 / (2 * s.baud.toNat) * (2 * s.baud.toNat)) := by
    rw [← hhalf]; ring
  rw [hduration]
  refine ⟨hplaying, hfinished, Nat.mul_le_mul_left _ (Nat.div_mul_le_self ..), fun hdvd => ?_⟩
  rw [Nat.div_mul_cancel (Nat.dvd_of_mod_eq_zero hdvd)]

end Sys2Proof.Machine

/-!
The control commands and the host bus: what each transaction decodes to and answers, and the
controller's transition table (42_control_and_host_bus.md).
-/
namespace Sys2Proof

/-! ### What the transactions decode to -/

/-- REG_READ's transaction at its register's address, whatever the data lines hold
(42_control_and_host_bus.md R108). -/
theorem decode_regRead (r : ReadReg) (w : Word) :
    decode (.bus ⟨.read, .w32, r.offset, w⟩) = .instr (.regRead r) :=
  (unusedDataLinesAreIgnored.1 .w32 r.offset w 0).trans (decode_encode_regRead r)

/-- The byte of an 8-bit write, as a number's low byte (20_memory.md R39). -/
theorem extractLsb'_byte_eq_ofNat (w : Word) : w.extractLsb' 0 8 = BitVec.ofNat 8 w.toNat :=
  BitVec.eq_of_toNat_eq (by rw [extractLsb'_byte_toNat, BitVec.toNat_ofNat])

/-- SRC_WRITE's transaction takes the low byte of the data lines
(42_control_and_host_bus.md R109). -/
theorem decode_srcWrite {i : Nat} (hi : i < Config.fileSizeLimit) (w : Word) :
    decode (.bus ⟨.write, .w8, BitVec.ofNat 20 (srcBase + i), w⟩)
      = .instr (.srcWrite i (BitVec.ofNat 8 w.toNat)) := by
  rw [decode_at_srcWindow hi, ← extractLsb'_byte_eq_ofNat]
  rfl

/-- At an address of no region every transaction is illegal (20_memory.md R38, R40). -/
theorem decode_unmapped {r : Request} {n : Nat} (ha : r.addr.toNat = n)
    (hreg : registerSpaceEnd ≤ n)
    (hsrc : n < srcBase ∨ srcBase + Config.fileSizeLimit ≤ n)
    (hframe : n < frameBase ∨ frameBase + Config.frameCapacity Config.fileSizeLimit ≤ n) :
    decode (.bus r) = .busError := by
  apply Machine.decode_eq_busError_of_not_admitted
  rw [Machine.admitted_iff_of_windows (ha ▸ hreg), ha]
  omega

/-- Nothing is mapped from the end of the SRC window to the FRAME window (20_memory.md R38). -/
theorem decode_past_srcWindow {i : Nat} (hi : Config.fileSizeLimit ≤ i) (hend : i < 0x40000)
    (kind : AccessKind) (width : AccessWidth) (w : Word) :
    decode (.bus ⟨kind, width, BitVec.ofNat 20 (srcBase + i), w⟩) = .busError := by
  have hs : srcBase = 0x40000 := rfl
  have hf : frameBase = 0x80000 := rfl
  have ha : (BitVec.ofNat 20 (srcBase + i)).toNat = srcBase + i := Laws.window_toNat (by omega)
  have hr : registerSpaceEnd ≤ srcBase := by decide
  exact decode_unmapped ha (by omega) (by omega) (by omega)

/-- Nothing is mapped past the FRAME window (20_memory.md R38). -/
theorem decode_past_frameWindow {i : Nat} (hi : Config.frameCapacity Config.fileSizeLimit ≤ i)
    (hend : i < 0x80000) (kind : AccessKind) (width : AccessWidth) (w : Word) :
    decode (.bus ⟨kind, width, BitVec.ofNat 20 (frameBase + i), w⟩) = .busError := by
  have hs : srcBase + 65536 < frameBase := by decide
  have hf : frameBase = 0x80000 := rfl
  have hlimit := Config.fileSizeLimit_le
  have ha : (BitVec.ofNat 20 (frameBase + i)).toNat = frameBase + i := Laws.window_toNat (by omega)
  have hr : registerSpaceEnd ≤ frameBase := by decide
  exact decode_unmapped ha (by omega) (by omega) (by omega)

end Sys2Proof

namespace Sys2Proof.Machine

/-! ### CTRL -/

/-- Every command that has a next state responds OK (42_control_and_host_bus.md R104). -/
theorem Transition.response_of_command {s t : State} {d : Decoded} (h : Transition s d t)
    (hd : d ∈ [.instr .nop, .instr .build, .instr .start, .instr .stop, .illegalCommand]) :
    ∃ v, t.response = some ⟨.ok, v⟩ := by
  cases h with
  | nop | illegal | failBuild | installFrame | start | stop => exact ⟨_, rfl⟩
  | busError hbus =>
    rcases hbus with rfl | ⟨i, -, ⟨b, rfl⟩ | rfl⟩ | ⟨i, -, rfl⟩ <;> simp at hd
  | play | silence | regWrite | regRead | srcWrite | srcRead | frameRead | reset => simp at hd

/-- The command map answers a command or IllegalCommand (30_encoding.md R54 to R56). -/
theorem decodeCommand_mem (w : Word) : decodeCommand w ∈
    [.instr .nop, .instr .build, .instr .start, .instr .stop, .illegalCommand] := by
  rcases decodeCommand_cases w with ⟨-, h⟩ | ⟨-, h⟩ | ⟨-, h⟩ | ⟨-, h⟩ | ⟨-, -, -, -, h⟩ <;> simp [h]

/-- The transition of the reset input (70_reset_and_hazards.md R130). -/
theorem step_of_reset {s : State} {x : Input} {rest : List Input} (hs : s.inputs = x :: rest)
    (hd : decode x = .reset) :
    step s = .next (State.performReset { s with inputs := rest }) := by
  rcases step_cases_of_input hs with ⟨i, hj, -⟩ | ⟨hj, -⟩ | ⟨hj, -⟩ | ⟨-, hstep⟩
  case inr.inr.inr => exact hstep
  all_goals exact absurd (hd.symm.trans hj) nofun

/-- Settles O10: address 0 is CTRL's, so the step is the transition of the command map's verdict. -/
theorem controlWritesRunTheirCommand : Obligations.ControlWritesRunTheirCommand := by
  intro s w rest hs u
  have hrun {i : Instr} (hd : decodeCommand w = .instr i) : step s = exec i u :=
    stepRunsTheDecodedInstruction s _ rest i hs ((decode_ctrlWrite w).trans hd)
  refine ⟨fun h => hrun (h ▸ rfl), fun h => hrun (h ▸ rfl), fun h => hrun (h ▸ rfl),
    fun h => hrun (h ▸ rfl), illegalCommandsSetOnlyIllAndTheCode.1 s w rest hs, fun t hstep => ?_⟩
  have ht : Transition u (decode (ctrlWrite w)) t := transition_of_step hs hstep
  rw [decode_ctrlWrite] at ht
  exact ht.response_of_command (decodeCommand_mem w)

/-- Settles O14: NOP's meaning is the bus response. -/
theorem nopChangesNoState : Obligations.NopChangesNoState :=
  ⟨commandWordsDecodeByTheMap 0, fun s => ⟨_, _, exec_nop s⟩⟩

/-- A failing BUILD outside PLAYING reports its code (40_frame_builder.md R86). -/
theorem exec_build_failing {s : State} {code : ErrorCode} (hp : s.ctrl ≠ .playing)
    (hcode : buildErrorAt Config.fileSizeLimit s = some code) :
    exec .build s = .next (s.failBuild code).respondWrite := by
  rw [exec_build, buildAt, if_neg hp, hcode]

/-- A BUILD after STOP finds the checks and the payload that a BUILD before it would have found
(42_control_and_host_bus.md R106). -/
theorem build_before_release {s u : State} (hp : s.ctrl ≠ .playing)
    (h : exec .build s.release.respondWrite = .next u) : ∃ u', exec .build s = .next u'
      ∧ u'.ctrl = u.ctrl ∧ u'.frameLen = u.frameLen ∧ u'.halfBit = u.halfBit
      ∧ u'.frame = u.frame := by
  cases transition_of_build h with
  | illegal hd => simp at hd
  | failBuild _ hcode => exact ⟨_, exec_build_failing hp hcode, rfl, rfl, rfl, rfl⟩
  | installFrame _ hv hh => exact ⟨_, exec_build_valid hp hv hh, rfl, rfl, rfl, rfl⟩
  | busError hd => simp at hd

/-- Settles O15: STOP writes none of the operands of BUILD. -/
theorem stopReleasesTheFrameInEveryState : Obligations.StopReleasesTheFrameInEveryState := by
  refine ⟨commandWordsDecodeByTheMap 3, fun s => ⟨_, _, _, exec_stop s, rfl, ?_, ?_⟩⟩
  · exact tickOutsidePlayingIsSilent _ nofun
  · exact fun u hbuild hp => build_before_release hp hbuild

/-! ### Registers -/

theorem Format.ofBit_eq_ite (b : Bool) :
    Format.ofBit b = if b then .binaryLoader else .tapeImage := by cases b <;> rfl

/-- Settles O34: the four addresses are those of the parameter registers. -/
theorem registerWritesStoreTheWord : Obligations.RegisterWritesStoreTheWord := by
  refine ⟨fun w => ⟨decode_encode_regWrite .mode w, decode_encode_regWrite .baud w,
    decode_encode_regWrite .loadAddr w, decode_encode_regWrite .srcLen w⟩,
    fun a w ha hctrl hmode hbaud hload hlen => ?_, fun a w ha => decode_register _ ha,
    fun s w => ?_⟩
  · have hnone : paramRegAt a = none := by
      rw [← Option.not_isSome_iff_eq_none, paramRegAt_isSome_iff]
      simp only [hmode, hbaud, hload, hlen, or_self, not_false_iff]
    rw [decode_register _ ha]
    simp only [decodeRegister, if_neg (show a ≠ ctrlOffset from hctrl), hnone]
  · rw [← Format.ofBit_eq_ite]
    exact ⟨⟨_, _, exec_regWrite .mode w s⟩, ⟨_, _, exec_regWrite .baud w s⟩,
      ⟨_, _, exec_regWrite .loadAddr w s⟩, ⟨_, _, exec_regWrite .srcLen w s⟩⟩

/-- STATE is in bits 2 to 0 and ILL in bit 3 (10_state.md R19). -/
theorem statusWord_toNat (s : State) : (statusWord s).toNat =
    (match s.ctrl with | .idle => 0 | .ready => 1 | .playing => 2 | .finished => 3 | .error => 4)
      + (if s.ill then 8 else 0) := by
  rw [statusWord]
  cases s.ctrl <;> cases s.ill <;> rfl

/-- The codes of 60_exceptions.md R113. -/
theorem ErrorCode.code_toNat (e : ErrorCode) : e.code.toNat = match e with
    | .none => 0 | .emptyInput => 1 | .fileTooLarge => 2 | .invalidLoadAddress => 3
    | .invalidBaudRate => 4 | .unreadable => 5 | .audioDeviceError => 6 | .illegalCommand => 7 := by
  cases e <;> rfl

/-- The codes of 10_state.md R21. -/
theorem Format.code_toNat (f : Format) :
    f.code.toNat = match f with | .tapeImage => 0 | .binaryLoader => 1 := by
  cases f <;> rfl

/-- The codes of 30_encoding.md R64. -/
theorem Symbol.code_toNat (sym : Symbol) :
    sym.code.toNat = match sym with | .zero => 0 | .pos => 1 | .neg => 2 := by
  cases sym <;> rfl

/-- BIT_POS is in bits 2 to 0, PHASE in bit 3 and DONE in bit 4 (10_state.md R28). -/
theorem cursorBitWord_toNat (c : Cursor) : (cursorBitWord c).toNat =
    c.bitPos.toNat + (if c.phase then 8 else 0) + (if c.done then 16 else 0) := by
  have hbits : ∀ (done phase : Bool) (bitPos : BitVec 3),
      ((BitVec.ofBool done ++ BitVec.ofBool phase ++ bitPos).setWidth 32).toNat =
        bitPos.toNat + (if phase then 8 else 0) + (if done then 16 else 0) := by decide
  exact hbits c.done c.phase c.bitPos

/-- LIMIT holds FILE_SIZE_LIMIT without loss (00_scope.md R8). -/
theorem limitWord_toNat {limit : Nat} (h : limit ≤ 65536) :
    ((BitVec.ofNat 17 limit).setWidth 32).toNat = limit := by
  rw [BitVec.toNat_setWidth_of_le (by decide), BitVec.toNat_ofNat, Nat.mod_eq_of_lt (by omega)]

/-- Settles O35: the 13 addresses are those of the readable registers, and a field narrower than the
data lines keeps its value on them. -/
theorem registerReadsReturnTheFields : Obligations.RegisterReadsReturnTheFields := by
  refine ⟨fun width a w ha hbad => ?_, fun w => ?_, fun s r => ⟨_, exec_regRead r s, ?_⟩⟩
  · apply decode_eq_busError_of_not_admitted
    rw [admitted_iff_of_register ha, decodeRegister_ne_busError_iff, readRegAt_isSome_iff]
    rintro (⟨-, hwidth, hmod, hlo, hhi⟩ | ⟨hkind, -⟩)
    · rcases hbad with rfl | rfl | rfl | rfl | hmis
      · exact absurd hwidth nofun
      · exact absurd hlo (show ¬ 0x04 ≤ (0x00000 : HostAddr).toNat by decide)
      · exact absurd hhi (show ¬ (0x00038 : HostAddr).toNat ≤ 0x34 by decide)
      · exact absurd hhi (show ¬ (0x0003C : HostAddr).toNat ≤ 0x34 by decide)
      · exact hmis hmod
    · exact absurd hkind nofun
  · exact List.map_congr_left (l := [ReadReg.status, .errCode, .mode, .baud, .loadAddr, .srcLen,
      .frameLen, .halfBit, .cursorPos, .cursorBit, .hbCnt, .sampleOut, .limit])
      (fun r _ => decode_regRead r w)
  · cases r with
    | status => exact statusWord_toNat s
    | errCode => exact (BitVec.toNat_setWidth_of_le (by decide)).trans s.errCode.code_toNat
    | mode => exact (BitVec.toNat_setWidth_of_le (by decide)).trans s.fmt.code_toNat
    | baud | loadAddr | srcLen => rfl
    | frameLen | halfBit | cursorPos | hbCnt => exact BitVec.toNat_setWidth_of_le (by decide)
    | cursorBit => exact cursorBitWord_toNat s.cursor
    | sampleOut => exact (BitVec.toNat_setWidth_of_le (by decide)).trans s.sampleOut.code_toNat
    | limit => exact limitWord_toNat Config.fileSizeLimit_le

/-! ### The windows -/

/-- Settles O36: inside the window SRC_WRITE is one memory write. -/
theorem sourceWriteStoresOneByte : Obligations.SourceWriteStoresOneByte := by
  refine ⟨fun i w hi => ⟨decode_srcWrite hi w, decode_at_srcWindow hi ..⟩,
    fun i w hi hend => decode_past_srcWindow hi hend .., fun s i b hi => ?_⟩
  rw [exec_srcWrite]
  rcases srcWriteAt_cases Config.fileSizeLimit i b s with ⟨-, hw⟩ | ⟨hpast, -⟩
  · exact ⟨_, _, _, hw, rfl, Memory.read_write s.src i b⟩
  · exact absurd hi (Nat.not_lt.2 hpast)

/-- Settles O37: inside the window SRC_READ stops exactly where SRC holds no byte. -/
theorem sourceReadReturnsTheByte : Obligations.SourceReadReturnsTheByte := by
  refine ⟨fun i w hi => ⟨decode_at_srcWindow hi .., decode_at_srcWindow hi ..⟩,
    fun i w hi hend => decode_past_srcWindow hi hend .., fun s i hi => ?_⟩
  rw [exec_srcRead]
  rcases srcReadAt_cases Config.fileSizeLimit i s with ⟨-, b, hb, hr⟩ | ⟨-, hb, hr⟩ | ⟨hpast, -⟩
  · rw [hr, hb]
    exact ⟨fun c hc => by cases hc; rfl, nofun⟩
  · rw [hr, hb]
    exact ⟨nofun, fun _ => rfl⟩
  · exact absurd hi (Nat.not_lt.2 hpast)

/-- Settles O38: inside the window FRAME_READ compares the index with FRAME_LEN. -/
theorem frameReadReturnsOnlyTheFrame : Obligations.FrameReadReturnsOnlyTheFrame := by
  refine ⟨fun i w hi => ⟨decode_at_frameWindow hi .., decode_at_frameWindow hi .., fun width => ?_⟩,
    fun i w hi hend => decode_past_frameWindow hi hend .., fun s i hi => ?_⟩
  · refine (decode_at_frameWindow hi .write width w).trans ?_
    cases width <;> rfl
  · rw [exec_frameRead]
    rcases frameReadAt_cases Config.fileSizeLimit_pos i s with ⟨-, hr⟩ | ⟨hpast, -⟩
    · rw [hr]
      refine ⟨fun b hlt hb => ?_, fun hle => ?_⟩
      · rw [if_pos hlt, State.frameByte, hb]; rfl
      · rw [if_neg (Nat.not_lt.2 hle)]; rfl
    · exact absurd hi (Nat.not_lt.2 hpast)

/-- Settles O39: each operation checks its index before it reads or writes a memory. -/
theorem indexesPastTheWindowsAnswerBusError : Obligations.IndexesPastTheWindowsAnswerBusError := by
  refine ⟨fun s i b hi => ⟨if_neg (Nat.not_lt.2 hi), if_neg (Nat.not_lt.2 hi)⟩, fun s i hi => ?_⟩
  rcases frameReadAt_cases Config.fileSizeLimit_pos i s with ⟨hin, -⟩ | ⟨-, hr⟩
  · exact absurd hin (Nat.not_lt.2 hi)
  · exact hr

/-! ### The controller's transition table -/

/-- The cursor's advance in PLAYING goes to FINISHED at the end of the frame and stays in PLAYING
before it (42_control_and_host_bus.md R112). -/
theorem State.advanceCursor_ctrl {s : State} (hp : s.ctrl = .playing) :
    (EndsFrame s ∧ s.advanceCursor.ctrl = .finished)
    ∨ (¬ EndsFrame s ∧ s.advanceCursor.ctrl = .playing) := by
  rcases s.advanceCursor_cases with
    ⟨hcnt, heq⟩ | ⟨-, hphase, heq⟩ | ⟨hcnt, hphase, heq⟩ <;> rw [heq]
  · exact .inr ⟨fun ⟨h, _⟩ => hcnt h, hp⟩
  · exact .inr ⟨fun ⟨_, h, _⟩ => Bool.noConfusion (hphase.symm.trans h), hp⟩
  · rcases State.completeBit_cases
      { s with cursor := { s.cursor with hbCnt := s.halfBit - 1, phase := true } } with
      ⟨hbit, heq⟩ | ⟨-, hmore, heq⟩ | ⟨hbit, hlast, heq⟩ <;> rw [heq]
    · exact .inr ⟨fun ⟨_, _, h, _⟩ => hbit h, hp⟩
    · exact .inr ⟨fun ⟨_, _, _, h⟩ => hmore h, hp⟩
    · exact .inl ⟨⟨hcnt, hphase, hbit, hlast⟩, rfl⟩

/-- Every transition of an operation is an entry of the table of 42_control_and_host_bus.md R112. -/
theorem Transition.controllerStep {s t : State} {i : Instr} (h : Transition s (.instr i) t) :
    ControllerStep Config.fileSizeLimit s i t.ctrl := by
  cases h with
  | nop => exact .nop
  | illegal hd =>
    rcases hd with hd | ⟨hd, hp⟩ | ⟨hd, hr⟩ <;> cases hd
    · rw [State.respondWrite_ctrl, State.raiseIllegalCommand_ctrl, hp]
      exact .buildPlaying hp
    · exact .startElsewhere hr
  | failBuild hp hcode =>
    refine .buildInvalid hp fun hv => ?_
    exact nomatch ((buildErrorAt_eq_none_iff _ s).2 hv).symm.trans hcode
  | installFrame hp hv => exact .buildValid hp hv
  | start hr => exact .startReady hr
  | stop => exact .stop
  | play hp =>
    rcases State.advanceCursor_ctrl (s := s.emit (polarity s.currentBit s.cursor.phase)) hp with
      ⟨hend, hctrl⟩ | ⟨hend, hctrl⟩ <;> rw [hctrl]
    · exact .tickLast hp hend
    · exact .tickPlaying hp hend
  | silence hp => exact .tickElsewhere hp
  | regWrite r w =>
    rw [State.respondWrite_ctrl, writeRegister_ctrl]
    exact .regWrite r w
  | regRead r => exact .regRead r
  | srcWrite b => exact .srcWrite _ b
  | srcRead => exact .srcRead _
  | frameRead => exact .frameRead _
  | busError hd =>
    rcases hd with hd | ⟨i, -, ⟨b, hd⟩ | hd⟩ | ⟨i, -, hd⟩ <;> cases hd
    · exact .srcWrite i b
    · exact .srcRead i
    · exact .frameRead i

/-- Settles O45: STATE follows the transitions, and each symbol and error mark its own operation. -/
theorem controllerFollowsTheTransitionTable : Obligations.ControllerFollowsTheTransitionTable := by
  refine ⟨fun i s t h => (transition_of_exec h).controllerStep, fun s t h hp => ?_,
    fun s t h hr => ?_, fun s t h => ⟨fun hp => ?_, fun hp => ?_⟩, fun s t rest hs h => ?_⟩
  · cases (exec_build_playing hp).symm.trans h
    exact ⟨rfl, rfl⟩
  · cases (exec_start_not_ready hr).symm.trans h
    exact ⟨rfl, rfl⟩
  · cases (exec_tick_playing hp).symm.trans h
    rw [State.advanceCursor_sampleOut, State.emit_sampleOut, polarity_eq_ite]
    split
    · exact .inl rfl
    · exact .inr rfl
  · cases (tickOutsidePlayingIsSilent s hp).symm.trans h
    rfl
  · cases (step_of_reset hs rfl).symm.trans h
    rfl

end Sys2Proof.Machine

/-!
The ways BUILD goes wrong (60_exceptions.md R116, R117): the first failing check outside PLAYING, and
the IllegalCommand in PLAYING.
-/
namespace Sys2Proof.Machine

/-- The load address check as the three conditions of 40_frame_builder.md R71. -/
theorem loadAddressInvalid_iff (limit loadAddr n : Nat) : loadAddressInvalid limit loadAddr n = true ↔
    limit < loadAddr ∨ 0xFFFF < loadAddr ∨ 0xFFFF < loadAddr + n - 1 := by
  simp only [loadAddressInvalid, Bool.or_eq_true, decide_eq_true_eq, or_assoc]

/-- When validation fails, the code is that of the first failing check, and BAUD's is the one left
when the three before it pass (60_exceptions.md R116). -/
theorem buildErrorAt_of_not_valid {limit : Nat} {s : State} (hv : ¬ BuildValid limit s) :
    buildErrorAt limit s = some (
      if limit < s.srcLen.toNat then .fileTooLarge
      else if s.srcLen.toNat = 0 then .emptyInput
      else if s.fmt = .binaryLoader ∧ (limit < s.loadAddr.toNat ∨ 0xFFFF < s.loadAddr.toNat
          ∨ 0xFFFF < s.loadAddr.toNat + s.srcLen.toNat - 1) then .invalidLoadAddress
      else .invalidBaudRate) := by
  have hfails : buildErrorAt limit s ≠ none := mt (buildErrorAt_eq_none_iff limit s).1 hv
  simp only [buildErrorAt, loadAddressInvalid_iff] at hfails ⊢
  split_ifs at hfails ⊢ with hlarge hempty haddr hbaud
  · rfl
  · rfl
  · rfl
  · rfl
  · exact absurd rfl hfails

/-- Settles O17: BUILD fails with the code its checks find. -/
theorem failingBuildReportsTheFirstFailingCheck :
    Obligations.FailingBuildReportsTheFirstFailingCheck :=
  fun _ hp hv => ⟨_, _, exec_build_failing hp (buildErrorAt_of_not_valid hv)⟩

/-- Settles O18: PLAYING is checked first, and the operands have no part in it. -/
theorem buildWhilePlayingIsIllegalWhateverItsOperands :
    Obligations.BuildWhilePlayingIsIllegalWhateverItsOperands :=
  fun _ _ _ _ _ hp => ⟨_, _, exec_build_playing hp⟩

end Sys2Proof.Machine

/-!
Reset, and what TICK neither needs nor touches (70_reset_and_hazards.md).
-/
namespace Sys2Proof.Machine

/-! ### TICK never stalls -/

/-- Settles O28: the frame of the Sample Generator's TICK. -/
theorem tickNeverFailsAndWritesOnlyPlaybackState :
    Obligations.TickNeverFailsAndWritesOnlyPlaybackState := fun s => execTick_frame s

/-- As no TICK fails, no run of TICKs does (70_reset_and_hazards.md R141). -/
theorem exists_tickTimes_next (k : Nat) (s : State) : ∃ t, tickTimes k s = .next t := by
  induction k with
  | zero => exact ⟨s, rfl⟩
  | succ k ih =>
    obtain ⟨u, hu⟩ := ih
    obtain ⟨t, ht, -⟩ := tickNeverFailsAndWritesOnlyPlaybackState u
    exact ⟨t, (tickTimes_succ hu).trans ht⟩

/-! ### Late parameter writes

BUILD's operands are the parameter registers and SRC (70_reset_and_hazards.md R136). Exchanging them
commutes with everything that playback does. -/

/-- The state with the parameter registers and SRC of another. -/
def State.withOperandsOf (s o : State) : State :=
  { s with fmt := o.fmt, baud := o.baud, loadAddr := o.loadAddr, srcLen := o.srcLen, src := o.src }

/-- Whether a bit, a byte or the frame ends is read off the cursor and FRAME_LEN. -/
theorem State.completeBit_withOperandsOf (s o : State) :
    (s.withOperandsOf o).completeBit = s.completeBit.withOperandsOf o := by
  rcases s.completeBit_cases with ⟨hbit, heq⟩ | ⟨hbit, hmore, heq⟩ | ⟨hbit, hlast, heq⟩ <;> rw [heq]
  · exact if_neg hbit
  · exact (if_pos hbit).trans (if_neg hmore)
  · exact (if_pos hbit).trans (if_pos hlast)

/-- The countdown is reloaded from HALF_BIT, never from BAUD. -/
theorem State.advanceCursor_withOperandsOf (s o : State) :
    (s.withOperandsOf o).advanceCursor = s.advanceCursor.withOperandsOf o := by
  rcases s.advanceCursor_cases with ⟨hcnt, heq⟩ | ⟨hcnt, hphase, heq⟩ | ⟨hcnt, hphase, heq⟩ <;>
    rw [heq]
  · exact if_neg hcnt
  · simp [State.advanceCursor, State.withOperandsOf, hcnt, hphase]
  · rw [← State.completeBit_withOperandsOf]
    simp [State.advanceCursor, State.withOperandsOf, hcnt, hphase]

/-- The bit that is sent is read from FRAME, never from SRC. -/
theorem exec_tick_withOperandsOf {s t : State} (h : exec .tick s = .next t) (o : State) :
    exec .tick (s.withOperandsOf o) = .next (t.withOperandsOf o) := by
  by_cases hp : s.ctrl = .playing
  · obtain rfl := Host.Outcome.next.inj ((exec_tick_playing hp).symm.trans h)
    rw [← State.advanceCursor_withOperandsOf]
    exact exec_tick_playing hp
  · obtain rfl := Host.Outcome.next.inj ((tickOutsidePlayingIsSilent s hp).symm.trans h)
    exact tickOutsidePlayingIsSilent _ hp

theorem tickTimes_withOperandsOf {k : Nat} {s t : State} (h : tickTimes k s = .next t) (o : State) :
    tickTimes k (s.withOperandsOf o) = .next (t.withOperandsOf o) := by
  induction k generalizing t with
  | zero => obtain rfl := Host.Outcome.next.inj h; rfl
  | succ k ih =>
    obtain ⟨u, hu⟩ := exists_tickTimes_next k s
    rw [tickTimes_succ (ih hu)]
    exact exec_tick_withOperandsOf ((tickTimes_succ hu).symm.trans h) o

/-- Settles O33: any two values of BUILD's operands are exchanged by one such state. -/
theorem lateParameterWritesNeverReachPlayback : Obligations.LateParameterWritesNeverReachPlayback :=
  fun s _ f b a l m _ h => tickTimes_withOperandsOf h
    { s with fmt := f, baud := b, loadAddr := a, srcLen := l, src := m }

/-! ### Reset -/

/-- In a state that sends ZERO the ports hold code 0 and +0.0 on both channels (30_encoding.md R64). -/
theorem State.ports_of_zero {s : State} (h : s.sampleOut = .zero) :
    s.sampleSym = 0 ∧ s.sampleL = 0x00000000 ∧ s.sampleR = 0x00000000 := by
  obtain ⟨hchannels, hzero, -⟩ := samplePortsFollowTheSymbol s
  obtain ⟨hsym, hleft⟩ := hzero h
  exact ⟨hsym, hleft, hchannels ▸ hleft⟩

/-- Settles O12: the transition loads the reset state, all but what is left of the inputs. -/
theorem resetTransitionWritesTheResetValues : Obligations.ResetTransitionWritesTheResetValues := by
  intro s rest hs
  refine ⟨_, step_of_reset hs rfl, ?_⟩
  obtain ⟨hsym, hleft, hright⟩ :=
    State.ports_of_zero (s := State.performReset { s with inputs := rest }) rfl
  exact ⟨rfl, rfl, rfl, rfl, rfl, rfl, rfl, rfl, rfl, rfl, rfl, rfl, rfl, rfl, rfl,
    hsym, hleft, hright, fun _ => rfl, rfl⟩

/-- Settles O13: the registers read as their fields, and FRAME_READ answers 0 from FRAME_LEN = 0 on. -/
theorem registersAfterResetReadAsTheTable : Obligations.RegistersAfterResetReadAsTheTable := by
  obtain ⟨-, -, hregs⟩ := registerReadsReturnTheFields
  obtain ⟨-, -, hframe⟩ := frameReadReturnsOnlyTheFrame
  obtain ⟨hsym, hleft, hright⟩ := State.ports_of_zero (s := State.reset) rfl
  refine ⟨fun r => ?_, hsym, hleft, hright, fun _ => rfl, fun k hk => ?_⟩
  · obtain ⟨v, hread, hv⟩ := hregs State.reset r
    refine ⟨v, hread, hv.trans ?_⟩
    cases r <;> rfl
  · obtain ⟨-, hpast⟩ := hframe State.reset k hk
    exact hpast (Nat.zero_le k)

end Sys2Proof.Machine
